-- ==== Sys2Proof/Word.lean ====
section
/-! DEFINITION. The machine's units of data (`00_scope.md` R5, R6): an 8-bit byte, which is also one
character code (CHAR_W = 8), and a 32-bit word, which is one host access and one AES schedule word
(REG_W = SHIFT_W = 32). -/

namespace Sys2Proof

/-- A byte, and a character code (R5, R61). -/
abbrev Byte := BitVec 8

/-- A register, a command word, an AES schedule word (R6, R15, R60). -/
abbrev Word := BitVec 32

end Sys2Proof
end

