-- ==== Sys2Proof/Syntax.lean ====
section
/-! DEFINITION. The commands of the block as syntax: one constructor per row of `opcode_table.json`
(`30_encoding.md` R60, R64). -/

namespace Sys2Proof

/-- The eight commands. The two shift commands carry the free bits `T` (produce a trace) and `SINV` (no integer
could be parsed) of R63; no command has any other operand in its word (R70). -/
inductive Instr where
  /-- NOP (R174). -/
  | nop
  /-- CLR (R175). -/
  | clr
  /-- SHIFT.ENC (R89), with T and SINV. -/
  | shiftEnc (t sinv : Bool)
  /-- SHIFT.DEC (R90), with T and SINV. -/
  | shiftDec (t sinv : Bool)
  /-- AES.ECB.ENC (R150). -/
  | aesEcbEnc
  /-- AES.ECB.DEC (R151). -/
  | aesEcbDec
  /-- AES.CBC.ENC (R152). -/
  | aesCbcEnc
  /-- AES.CBC.DEC (R153). -/
  | aesCbcDec
  deriving DecidableEq, Repr

/-- The algorithm selector, the ALG bit (R63). -/
inductive Alg where
  | shift
  | aes
  deriving DecidableEq, Repr

/-- The direction, the DIR bit (R63). -/
inductive Dir where
  | encrypt
  | decrypt
  deriving DecidableEq, Repr

/-- The block mode, the MODE bit (R63). -/
inductive Mode where
  | ecb
  | cbc
  deriving DecidableEq, Repr

/-- The decoded fields of a RUN command, as `Decode` gives them (R167) and `cur_cmd` holds them (R23). -/
structure Cmd where
  alg : Alg
  dir : Dir
  mode : Mode
  t : Bool
  sinv : Bool
  deriving DecidableEq, Repr

/-- The RUN fields of a command (R167); none for the two that start no operation (R60). The mode of a shift
command is the filler ECB, which nothing reads. -/
def Instr.run? : Instr → Option Cmd
  | .nop => none
  | .clr => none
  | .shiftEnc t sinv => some ⟨.shift, .encrypt, .ecb, t, sinv⟩
  | .shiftDec t sinv => some ⟨.shift, .decrypt, .ecb, t, sinv⟩
  | .aesEcbEnc => some ⟨.aes, .encrypt, .ecb, false, false⟩
  | .aesEcbDec => some ⟨.aes, .decrypt, .ecb, false, false⟩
  | .aesCbcEnc => some ⟨.aes, .encrypt, .cbc, false, false⟩
  | .aesCbcDec => some ⟨.aes, .decrypt, .cbc, false, false⟩

end Sys2Proof
end

