-- ==== Sys2Proof/WellFormed.lean ====
section
/-! DEFINITION. Which commands are legal on an instance (`30_encoding.md` R64, R71): the two CBC commands only
where HAS_CBC is true, every other command always. -/

namespace Sys2Proof

/-- `i` is legal on an instance whose HAS_CBC is `hasCbc`. The syntax admits no other ill-formed command:
T and SINV exist only on the shift commands and are free there. -/
def Instr.wf (hasCbc : Bool) : Instr → Bool
  | .nop => true
  | .clr => true
  | .shiftEnc _ _ => true
  | .shiftDec _ _ => true
  | .aesEcbEnc => true
  | .aesEcbDec => true
  | .aesCbcEnc => hasCbc
  | .aesCbcDec => hasCbc

end Sys2Proof
end

