-- ==== Sys2Proof/Decode.lean ====
section
/-! DEFINITION. `Decode` of `44_cipher_engine_control.md` R167 on any 32-bit command word, with the field
layout of `30_encoding.md` R63, and after it the encoder written from the opcode map R64. A word the decoder
rejects is `Illegal` (R71). -/

namespace Sys2Proof

/-- OP, bits [3:0] (R63). -/
def opField (c : Word) : BitVec 4 := c.extractLsb' 0 4
/-- ALG, bit [4]. -/
def algBit (c : Word) : Bool := c.getLsbD 4
/-- DIR, bit [5]. -/
def dirBit (c : Word) : Bool := c.getLsbD 5
/-- MODE, bit [6]. -/
def modeBit (c : Word) : Bool := c.getLsbD 6
/-- T, bit [7]. -/
def tBit (c : Word) : Bool := c.getLsbD 7
/-- SINV, bit [8]. -/
def sinvBit (c : Word) : Bool := c.getLsbD 8
/-- Bits [31:9], reserved, must be 0. -/
def reservedField (c : Word) : BitVec 23 := c.extractLsb' 9 23
/-- Bits [8:4], which must be 0 in NOP and CLR (R71). -/
def runFields (c : Word) : BitVec 5 := c.extractLsb' 4 5

/-- The shift arm of R167: ALG = 0. -/
def decodeShift (c : Word) : Option Instr :=
  if modeBit c then none
  else if dirBit c then some (.shiftDec (tBit c) (sinvBit c))
  else some (.shiftEnc (tBit c) (sinvBit c))

/-- The AES arm of R167: ALG = 1. -/
def decodeAes (hasCbc : Bool) (c : Word) : Option Instr :=
  if sinvBit c || tBit c then none
  else if modeBit c && !hasCbc then none
  else match modeBit c, dirBit c with
    | false, false => some .aesEcbEnc
    | false, true => some .aesEcbDec
    | true, false => some .aesCbcEnc
    | true, true => some .aesCbcDec

/-- `Decode(c)` (R167), total; `none` is `Illegal`. -/
def decode (hasCbc : Bool) (c : Word) : Option Instr :=
  if reservedField c ≠ 0 then none
  else if opField c = 0x0 then (if runFields c = 0 then some .nop else none)
  else if opField c = 0x2 then (if runFields c = 0 then some .clr else none)
  else if opField c = 0x1 then (if algBit c then decodeAes hasCbc c else decodeShift c)
  else none

/-- A command word from its fields, most significant first (R63). -/
def packWord (sinv t mode dir alg : Bool) (op : BitVec 4) : Word :=
  0#23 ++ BitVec.ofBool sinv ++ BitVec.ofBool t ++ BitVec.ofBool mode ++ BitVec.ofBool dir ++ BitVec.ofBool alg ++ op

/-- The word of a command (R64). -/
def encode : Instr → Word
  | .nop => packWord false false false false false 0x0
  | .clr => packWord false false false false false 0x2
  | .shiftEnc t sinv => packWord sinv t false false false 0x1
  | .shiftDec t sinv => packWord sinv t false true false 0x1
  | .aesEcbEnc => packWord false false false false true 0x1
  | .aesEcbDec => packWord false false false true true 0x1
  | .aesCbcEnc => packWord false false true false true 0x1
  | .aesCbcDec => packWord false false true true true 0x1

/-- What the decoder reads from an instruction whose bits are `w`, numbered as the opcode table numbers them
(bit 0 least significant; R60: every command is one 32-bit word, so `nbits` is 32). The CBC rows are read as on an
instance that has CBC. -/
def decodeTableWord (nbits w : Nat) : Option Instr :=
  decode true (BitVec.ofNat 32 (w % 2 ^ nbits))

end Sys2Proof
end

