-- ==== Sys2Proof/Config.lean ====
section
/-! DEFINITION. What an implementation fixes (`00_scope.md` R6): the three parameters the spec leaves OPEN
as model arguments, and the sizes R6 fixes or derives. The parameters are a plain record that the state
carries unchanged, so that every statement about a state is a statement for every choice of them (log 4).
The spec leaves no instruction's result undefined, so this file holds no free value. -/

namespace Sys2Proof

/-- The OPEN parameters of R6 (U6, U7, U8). -/
structure Config where
  /-- `IN_DEPTH`: capacity of the input buffer in characters. -/
  inDepth : Nat
  /-- `HAS_CBC`: whether the CBC-with-padding extension is present. -/
  hasCbc : Bool
  /-- `BASE`: byte address of the register window in the host's address space. -/
  base : Nat
  deriving DecidableEq, Repr

/-- The range R6 gives for IN_DEPTH. -/
def Config.wf (c : Config) : Bool := decide (32 ≤ c.inDepth ∧ c.inDepth ≤ 32736)

/-- The configuration `State.reset` has: R6's default depth. DESIGN CHOICE (log 4): CBC present, BASE 0. -/
def Config.default : Config := { inDepth := 1024, hasCbc := true, base := 0 }

/-- KEY_DEPTH (R6, R20). -/
def Config.keyDepth : Nat := 64

/-- OUT_DEPTH = IN_DEPTH + 32 (R6, R21). -/
def Config.outDepth (c : Config) : Nat := c.inDepth + 32

/-- TRACE_DEPTH = IN_DEPTH (R6, R22). -/
def Config.traceDepth (c : Config) : Nat := c.inDepth

end Sys2Proof
end

