-- ==== Sys2Proof/Machine/State.lean ====
section
/-! DEFINITION. The state of the block as plain data: every register, flag, buffer, pointer and latch of
`10_state.md`, the engine working storage of R24, the configuration of R6, and two fields of the model's own
(`pending`, `readData`). Reset values are R29's; those the spec leaves unspecified are named in logs 4 to 6 and 8. -/

namespace Sys2Proof.Machine

/-- What sequences the block's work (R11): `running` exactly when STATUS.BUSY = 1. -/
inductive Phase where
  | idle
  | running
  deriving DecidableEq, Repr

/-- The errors of `60_exceptions.md` R185. `STATUS.ERR` is an `Option Err`, `none` being code 0, None. -/
inductive Err where
  /-- Code 1: the key does not decode to 16 bytes. -/
  | keyLength
  /-- Code 2: the data does not decode to a multiple of 16 bytes. -/
  | blockAlignment
  /-- Code 3: malformed hex. -/
  | encoding
  /-- Code 4: SINV = 1. -/
  | invalidShift
  /-- Code 5: a push had been dropped. -/
  | overflow
  /-- Code 6: bad CBC padding. -/
  | padding
  /-- Code 7: a word that decodes to Illegal. -/
  | illegalCommand
  deriving DecidableEq, Repr

/-- A trace entry (R16, R22, R69): the input symbol, the output symbol, the 15-bit index in the text. -/
structure TraceEntry where
  inSym : Byte
  outSym : Byte
  pos : BitVec 15
  deriving DecidableEq, Repr

/-- One column of the AES state, rows 0 to 3 (`42_aes_state_machine.md` R115); also a word's four bytes, most
significant first (R51 (d)). -/
structure Column where
  r0 : Byte
  r1 : Byte
  r2 : Byte
  r3 : Byte
  deriving DecidableEq, Repr

/-- A Block (R14): exactly 16 bytes, byte `r + 4c` being row `r` of column `c` (R115). Also an AES key and the IV. -/
structure Block where
  c0 : Column
  c1 : Column
  c2 : Column
  c3 : Column
  deriving DecidableEq, Repr

/-- The states of the reference sequence (R124), with the character index, the word index, the block index and the
round counter of R24 where they are in use. -/
inductive Seq where
  /-- S_VALIDATE. -/
  | validate
  /-- S_SHIFT(i): character `i`. -/
  | shift (i : Nat)
  /-- S_KEYEXP(i): word `i` of the schedule. -/
  | keyExp (i : Nat)
  /-- S_LOAD(j): block `j`. -/
  | load (j : Nat)
  /-- S_ROUND(n) on block `j`. -/
  | round (j n : Nat)
  /-- S_STORE(j). -/
  | store (j : Nat)
  /-- S_UNPAD. -/
  | unpad
  /-- S_COMMIT: the result is ready for the completion step. -/
  | commit
  deriving DecidableEq, Repr

/-- The engine working storage (R24), not readable by the host; `out`, `trace` and `err` are the result under
construction, which R124 implies (log 6). -/
structure Work where
  /-- Which state of the reference sequence the engine is in. -/
  seq : Seq
  /-- The effective shift, 5 bits. -/
  ke : BitVec 5
  /-- The round-key file. -/
  w : List Word
  /-- The AES state register. -/
  st : Block
  /-- The decoded key. -/
  key : Block
  /-- The decoded message bytes, padded where the command pads. -/
  msg : List Byte
  /-- The chaining register. -/
  chain : Block
  /-- The result so far: characters of a shift command, bytes of an AES command. -/
  out : List Byte
  /-- The trace so far. -/
  trace : List TraceEntry
  /-- The error found, if any. -/
  err : Option Err
  deriving DecidableEq, Repr

/-- One turn of the total order of R56: a host access as the bus carries it (byte address, size in bytes, data), a
step of the engine, or the environment's reset (R166, R205). -/
inductive Turn where
  /-- A write of `d` to address `addr`, `size` bytes wide; `HostWrite(off, d)` is address BASE + off, size 4 (R7). -/
  | write (addr size : Nat) (d : Word)
  /-- A read from address `addr`, `size` bytes wide (R7). -/
  | read (addr size : Nat)
  /-- The engine may take its completion step (R172). -/
  | engine
  /-- The engine may take one internal micro-step (R56, R124). -/
  | micro
  /-- Reset (R205). -/
  | reset
  deriving DecidableEq, Repr

/-- The whole machine. -/
structure State where
  /-- IN_DEPTH, HAS_CBC and BASE of this instance (R6); no step changes it (R28, R207). -/
  cfg : Config
  /-- IDLE or RUNNING; STATUS.BUSY is its view (R11). -/
  phase : Phase
  /-- STATUS.DONE (R17). -/
  done : Bool
  /-- STATUS.OVF (R17). -/
  ovf : Bool
  /-- STATUS.ERR (R17, R185); `none` is code 0. -/
  err : Option Err
  /-- SHIFT (R10). -/
  shift : Word
  /-- IV0: bytes 0 to 3 of the IV (R10). -/
  iv0 : Word
  /-- IV1: bytes 4 to 7. -/
  iv1 : Word
  /-- IV2: bytes 8 to 11. -/
  iv2 : Word
  /-- IV3: bytes 12 to 15. -/
  iv3 : Word
  /-- `key_buf[0..key_len)` (R20); `key_len` is its length (U2, log 9). -/
  keyBuf : List Byte
  /-- `in_buf[0..in_len)` (R19). -/
  inBuf : List Byte
  /-- `out_buf[0..out_len)` (R21). -/
  outBuf : List Byte
  /-- `out_rp` (R21). -/
  outRp : Nat
  /-- `trace_buf[0..trace_len)` (R22). -/
  traceBuf : List TraceEntry
  /-- `trace_rp` (R22). -/
  traceRp : Nat
  /-- `cur_cmd` (R23). DESIGN CHOICE (log 5) while IDLE, where R23 calls it meaningless: the last command latched
  stays. -/
  curCmd : Cmd
  /-- The engine working storage (R24). -/
  work : Work
  /-- The model's own: the turns still to come, next first (R56, log 1). -/
  pending : List Turn
  /-- The model's own: the value the latest HostRead returned (R7, log 8). -/
  readData : Word
  deriving DecidableEq, Repr

/-- Why the machine could stop with a fault: for no reason at all. No host action raises anything but a code in
STATUS.ERR (R189, `93_implementation_defined.md` part 1), so the type has no constructor. Safe. -/
inductive Fault where
  deriving DecidableEq, Repr

/-- Why the model gives a step no meaning. -/
inductive Refusal where
  /-- Raised by `exec` alone, for an instruction that has no meaning yet; no arm raises it. Safe: the run stops. -/
  | notModelled (mnemonic : String)
  /-- Raised by a host access whose address lies outside BASE + 0x00 .. BASE + 0x3F (R42, U1). Safe: the run stops. -/
  | outsideWindow (addr : Nat)
  /-- Raised by a host access inside the window that is not an aligned 32-bit access (R41, U1). Safe: the run
  stops. -/
  | notWordAccess (addr size : Nat)
  deriving DecidableEq, Repr

/-- Four zero bytes. -/
def Column.zero : Column := ⟨0, 0, 0, 0⟩

/-- Sixteen zero bytes. -/
def Block.zero : Block := ⟨.zero, .zero, .zero, .zero⟩

/-- The working storage after reset. DESIGN CHOICE (log 6): the spec says unspecified and unobservable (R29). -/
def Work.reset : Work :=
  { seq := .commit, ke := 0, w := [], st := .zero, key := .zero, msg := [], chain := .zero, out := [], trace := [],
    err := none }

/-- `cur_cmd` after reset. DESIGN CHOICE (log 5): the spec says unspecified and unobservable (R29, U3). -/
def resetCmd : Cmd := ⟨.shift, .encrypt, .ecb, false, false⟩

/-- The reset state of an instance with parameters `cfg` (R29). -/
def State.resetOf (cfg : Config) : State :=
  { cfg := cfg
    phase := .idle
    done := false
    ovf := false
    err := none
    shift := 0
    iv0 := 0
    iv1 := 0
    iv2 := 0
    iv3 := 0
    keyBuf := []
    inBuf := []
    outBuf := []
    outRp := 0
    traceBuf := []
    traceRp := 0
    curCmd := resetCmd
    work := .reset
    pending := []
    readData := 0 }

/-- The machine right after reset, with the configuration of log 4. -/
def State.reset : State := State.resetOf Config.default

end Sys2Proof.Machine
end

