-- ==== Sys2Proof/Machine/Ops.lean ====
section
/-! DEFINITION. The named operations on the state: field updates, the buffers' push and pop, the acceptance of a
RUN, the commit of a result, the delivery of an error (the block's analogue of taking an exception,
`60_exceptions.md` R189) and its clearing (the analogue of the return, R190). -/

namespace Sys2Proof.Machine

/-- STATUS.BUSY (R11): 1 exactly when `phase` is RUNNING. -/
def State.busy (s : State) : Bool :=
  match s.phase with
  | .idle => false
  | .running => true

/-! ### Field updates -/

def State.setStatus (s : State) (p : Phase) (d : Bool) (e : Option Err) : State :=
  { s with phase := p, done := d, err := e }
def State.setOvf (s : State) (b : Bool) : State := { s with ovf := b }
def State.setShift (s : State) (d : Word) : State := { s with shift := d }
def State.setIv0 (s : State) (d : Word) : State := { s with iv0 := d }
def State.setIv1 (s : State) (d : Word) : State := { s with iv1 := d }
def State.setIv2 (s : State) (d : Word) : State := { s with iv2 := d }
def State.setIv3 (s : State) (d : Word) : State := { s with iv3 := d }
def State.setKeyBuf (s : State) (cs : List Byte) : State := { s with keyBuf := cs }
def State.setInBuf (s : State) (cs : List Byte) : State := { s with inBuf := cs }
/-- The whole result state's buffers at once, both read pointers back to 0 (R21, R22, R172). -/
def State.setResult (s : State) (out : List Byte) (trace : List TraceEntry) : State :=
  { s with outBuf := out, outRp := 0, traceBuf := trace, traceRp := 0 }
def State.setOutRp (s : State) (n : Nat) : State := { s with outRp := n }
def State.setTraceRp (s : State) (n : Nat) : State := { s with traceRp := n }
def State.setCurCmd (s : State) (c : Cmd) : State := { s with curCmd := c }
def State.setWork (s : State) (wk : Work) : State := { s with work := wk }
def State.setPending (s : State) (ts : List Turn) : State := { s with pending := ts }
def State.setReadData (s : State) (d : Word) : State := { s with readData := d }

/-! ### Buffers -/

/-- KEY_PUSH of one character (R47): append, or set OVF when the buffer is full. -/
def pushKey (c : Byte) (s : State) : State :=
  if s.keyBuf.length < Config.keyDepth then s.setKeyBuf (s.keyBuf ++ [c]) else s.setOvf true

/-- IN_PUSH of one character (R48): append, or set OVF when the buffer is full. -/
def pushIn (c : Byte) (s : State) : State :=
  if s.inBuf.length < s.cfg.inDepth then s.setInBuf (s.inBuf ++ [c]) else s.setOvf true

/-- The output character the next OUT_POP returns, if there is one (R49). -/
def nextOut (s : State) : Option Byte := s.outBuf[s.outRp]?

/-- The trace entry the next TRACE_POP returns, if there is one (R50). -/
def nextTrace (s : State) : Option TraceEntry := s.traceBuf[s.traceRp]?

/-- OUT_POP's side effect (R49): the read pointer passes the character returned. -/
def popOut (s : State) : State :=
  match nextOut s with
  | some _ => s.setOutRp (s.outRp + 1)
  | none => s

/-- TRACE_POP's side effect (R50). -/
def popTrace (s : State) : State :=
  match nextTrace s with
  | some _ => s.setTraceRp (s.traceRp + 1)
  | none => s

/-! ### Running an operation -/

/-- Acceptance of RUN (R170): latch the command, set BUSY, clear DONE and ERR, empty the result state. The engine
stands at the start of its reference sequence (R124); operand state is untouched. -/
def accept (cmd : Cmd) (s : State) : State :=
  (((s.setResult [] []).setStatus .running false none).setCurCmd cmd).setWork { s.work with seq := .validate }

/-- The commit of a successful result (R172): the whole result at once, ERR 0, BUSY 0, DONE 1. DESIGN CHOICE (log 5):
`cur_cmd`, meaningless from here on (R23), keeps the finished command. -/
def commit (out : List Byte) (trace : List TraceEntry) (s : State) : State :=
  (s.setResult out trace).setStatus .idle true none

/-- Delivery of an error (R189), the analogue of taking an exception: the code in ERR, DONE set, BUSY 0, the result
buffers emptied, nothing else. Used by the completion step (R172) and by an illegal command (R176). DESIGN CHOICE
(log 5): `cur_cmd`, meaningless from here on (R23), keeps the command last latched. -/
def deliver (e : Err) (s : State) : State :=
  (s.setResult [] []).setStatus .idle true (some e)

/-- An illegal command word's effect (R176): IllegalCommand is delivered at once and no operation starts. -/
def illegalCommand (s : State) : State := deliver .illegalCommand s

/-- CLR's effect (R175), which is also the clearing of R190: all four buffers empty, DONE, ERR and OVF 0. DESIGN CHOICE
(log 5): `cur_cmd`, meaningless while IDLE (R23), stays. -/
def clearRequest (s : State) : State :=
  ((((s.setKeyBuf []).setInBuf []).setResult [] []).setStatus s.phase false none).setOvf false

/-- A host write takes effect only while BUSY = 0; while BUSY = 1 it changes nothing (R45, R168). -/
def whenIdle (f : State → State) (s : State) : Host.Outcome State Fault Refusal :=
  .next (if s.busy then s else f s)

/-- Reset in any state (R205, R206): every piece of the block's state takes the value of R29. The configuration is
not touched (R207), the environment's remaining turns still come, and a value already returned stays returned
(logs 1, 8). -/
def applyReset (s : State) : State :=
  ((State.resetOf s.cfg).setPending s.pending).setReadData s.readData

end Sys2Proof.Machine
end

