-- ==== Sys2Proof/Machine/Aes.lean ====
section
/-! DEFINITION. The AES commands (`43_aes_mode_wrapper.md` R150 to R153): the command's write to CTRL is the
acceptance of R170; what the operation computes is committed by the completion step from `cur_cmd`
(Machine/Engine.lean, R172). The CBC commands are illegal commands where HAS_CBC is false (R71, R152, log 11). -/

namespace Sys2Proof.Machine

/-- AES.ECB.ENC (R150). -/
def execAesEcbEnc (s : State) : Host.Outcome State Fault Refusal :=
  whenIdle (accept ⟨.aes, .encrypt, .ecb, false, false⟩) s

/-- AES.ECB.DEC (R151). -/
def execAesEcbDec (s : State) : Host.Outcome State Fault Refusal :=
  whenIdle (accept ⟨.aes, .decrypt, .ecb, false, false⟩) s

/-- Acceptance where the instance has CBC, the illegal command's effect where it has not (R71, R176). -/
def acceptCbc (cmd : Cmd) (s : State) : State :=
  if s.cfg.hasCbc then accept cmd s else illegalCommand s

/-- AES.CBC.ENC (R152). -/
def execAesCbcEnc (s : State) : Host.Outcome State Fault Refusal :=
  whenIdle (acceptCbc ⟨.aes, .encrypt, .cbc, false, false⟩) s

/-- AES.CBC.DEC (R153). -/
def execAesCbcDec (s : State) : Host.Outcome State Fault Refusal :=
  whenIdle (acceptCbc ⟨.aes, .decrypt, .cbc, false, false⟩) s

end Sys2Proof.Machine
end

