-- ==== Sys2Proof/Machine/Control.lean ====
section
/-! DEFINITION. The commands that start no operation (`44_cipher_engine_control.md`): NOP R174 and CLR R175. Each
meaning is the effect of the command's write to CTRL in any state: while BUSY = 1, nothing (R45, R168, log 12). -/

namespace Sys2Proof.Machine

/-- NOP (R174): no register, buffer, pointer or flag changes. -/
def execNop (s : State) : Host.Outcome State Fault Refusal := whenIdle id s

/-- CLR (R175). -/
def execClr (s : State) : Host.Outcome State Fault Refusal := whenIdle clearRequest s

end Sys2Proof.Machine
end

