-- ==== Sys2Proof/Machine/Shift.lean ====
section
/-! DEFINITION. The shift commands (`40_shift_cipher.md` R89, R90): the command's write to CTRL is the acceptance of
R170; what the operation computes is committed by the completion step from `cur_cmd` (Machine/Engine.lean, R172). -/

namespace Sys2Proof.Machine

/-- SHIFT.ENC (R89). -/
def execShiftEnc (t sinv : Bool) (s : State) : Host.Outcome State Fault Refusal :=
  whenIdle (accept ⟨.shift, .encrypt, .ecb, t, sinv⟩) s

/-- SHIFT.DEC (R90). -/
def execShiftDec (t sinv : Bool) (s : State) : Host.Outcome State Fault Refusal :=
  whenIdle (accept ⟨.shift, .decrypt, .ecb, t, sinv⟩) s

end Sys2Proof.Machine
end

