-- ==== Sys2Proof/Machine/Dispatch.lean ====
section
/-! DEFINITION. The meaning of every command, one arm per constructor of `Instr`. -/

namespace Sys2Proof.Machine

/-- The effect of a command's write to CTRL (`44_cipher_engine_control.md` R168). -/
def exec (i : Instr) (s : State) : Host.Outcome State Fault Refusal :=
  match i with
  | .nop => Sys2Proof.Machine.execNop s
  | .clr => Sys2Proof.Machine.execClr s
  | .shiftEnc t sinv => Sys2Proof.Machine.execShiftEnc t sinv s
  | .shiftDec t sinv => Sys2Proof.Machine.execShiftDec t sinv s
  | .aesEcbEnc => Sys2Proof.Machine.execAesEcbEnc s
  | .aesEcbDec => Sys2Proof.Machine.execAesEcbDec s
  | .aesCbcEnc => Sys2Proof.Machine.execAesCbcEnc s
  | .aesCbcDec => Sys2Proof.Machine.execAesCbcDec s

end Sys2Proof.Machine
end

