-- ==== Sys2Proof/Machine/Flags.lean ====
section
/-! DEFINITION. The words the host reads: the STATUS word and its error codes (`30_encoding.md` R65,
`60_exceptions.md` R185), lengths and pops (R67, R69), CAP (R68). -/

namespace Sys2Proof.Machine

/-- The error code in STATUS.ERR (R185). -/
def errCode : Option Err → BitVec 3
  | none => 0
  | some .keyLength => 1
  | some .blockAlignment => 2
  | some .encoding => 3
  | some .invalidShift => 4
  | some .overflow => 5
  | some .padding => 6
  | some .illegalCommand => 7

/-- STATUS (R65): [0] BUSY, [1] DONE, [2] OVF, [3] 0, [6:4] ERR, [31:7] 0. -/
def statusWord (s : State) : Word :=
  0#25 ++ errCode s.err ++ 0#1 ++ BitVec.ofBool s.ovf ++ BitVec.ofBool s.done ++ BitVec.ofBool s.busy

/-- A length register (R67): the length in bits [15:0], bits [31:16] 0. -/
def lengthWord (n : Nat) : Word := 0#16 ++ BitVec.ofNat 16 n

/-- What OUT_POP returns (R49, R67): VALID and the character, or 0 when empty. -/
def outWord : Option Byte → Word
  | some c => 1#1 ++ 0#23 ++ c
  | none => 0

/-- What TRACE_POP returns (R50, R69): VALID, pos, out, in, or 0 when empty. -/
def traceWord : Option TraceEntry → Word
  | some e => 1#1 ++ e.pos ++ e.outSym ++ e.inSym
  | none => 0

/-- CAP (R68): [15:0] IN_DEPTH, [16] HAS_CBC, [31:17] 0. -/
def capWord (c : Config) : Word := 0#15 ++ BitVec.ofBool c.hasCbc ++ BitVec.ofNat 16 c.inDepth

end Sys2Proof.Machine
end

