-- ==== Sys2Proof/Machine/Operands.lean ====
section
/-! DEFINITION. Operand assembly (`30_encoding.md` R70): what an operation reads, taken from the state whole, and the
conversions between words, columns, blocks and byte sequences (`20_memory.md` R51, `10_state.md` R10). -/

namespace Sys2Proof.Machine

/-- A column as a word, row 0 most significant (R51 (d)). -/
def Column.toWord (c : Column) : Word := c.r0 ++ c.r1 ++ c.r2 ++ c.r3

/-- A word as a column, most significant byte first (R107). -/
def Column.ofWord (w : Word) : Column :=
  ⟨w.extractLsb' 24 8, w.extractLsb' 16 8, w.extractLsb' 8 8, w.extractLsb' 0 8⟩

/-- The bytes of a Block in order (R14, R115). -/
def Block.toBytes (b : Block) : List Byte :=
  [b.c0.r0, b.c0.r1, b.c0.r2, b.c0.r3, b.c1.r0, b.c1.r1, b.c1.r2, b.c1.r3,
   b.c2.r0, b.c2.r1, b.c2.r2, b.c2.r3, b.c3.r0, b.c3.r1, b.c3.r2, b.c3.r3]

/-- The column whose four bytes start at index `i` of `bs`. -/
def Column.ofBytes (bs : List Byte) (i : Nat) : Column :=
  ⟨bs.getD i 0, bs.getD (i + 1) 0, bs.getD (i + 2) 0, bs.getD (i + 3) 0⟩

/-- The Block of the first 16 bytes of `bs` (R14, R115); only ever used where there are 16 (log 14). -/
def Block.ofBytes (bs : List Byte) : Block :=
  ⟨.ofBytes bs 0, .ofBytes bs 4, .ofBytes bs 8, .ofBytes bs 12⟩

/-- The 16 bytes of the IV registers, big-endian within each (R10, R66). -/
def State.iv (s : State) : Block :=
  ⟨.ofWord s.iv0, .ofWord s.iv1, .ofWord s.iv2, .ofWord s.iv3⟩

/-- The operand state `ops` that `Exec` reads (R171). -/
structure Operands where
  /-- `in_buf[0..in_len)`. -/
  text : List Byte
  /-- `key_buf[0..key_len)`. -/
  key : List Byte
  /-- SHIFT. -/
  shift : Word
  /-- IV. -/
  iv : Block
  /-- STATUS.OVF. -/
  ovf : Bool
  deriving DecidableEq, Repr

/-- The operand state of the machine (R70, R171). -/
def State.operands (s : State) : Operands :=
  { text := s.inBuf, key := s.keyBuf, shift := s.shift, iv := s.iv, ovf := s.ovf }

/-- The character a push takes: bits [7:0] of the datum, the rest ignored (R47, R48, R66). -/
def pushedChar (d : Word) : Byte := d.extractLsb' 0 8

end Sys2Proof.Machine
end

