-- ==== Sys2Proof/Machine/Asm.lean ====
section
/-! DEFINITION. ASM, the AES-128 state machine (`42_aes_state_machine.md`): the round transformations R116 to R119
and the block functions R120, R121. -/

namespace Sys2Proof.Machine

/-- Apply a byte function to every byte of a column. -/
def Column.map (f : Byte → Byte) (c : Column) : Column := ⟨f c.r0, f c.r1, f c.r2, f c.r3⟩

/-- Byte-wise XOR of columns. -/
def Column.xor (a b : Column) : Column := ⟨a.r0 ^^^ b.r0, a.r1 ^^^ b.r1, a.r2 ^^^ b.r2, a.r3 ^^^ b.r3⟩

/-- Byte-wise XOR of Blocks (R116, R145). -/
def Block.xor (a b : Block) : Block := ⟨a.c0.xor b.c0, a.c1.xor b.c1, a.c2.xor b.c2, a.c3.xor b.c3⟩

/-- Apply a column function to every column. -/
def Block.mapColumns (f : Column → Column) (b : Block) : Block := ⟨f b.c0, f b.c1, f b.c2, f b.c3⟩

/-- `AddRoundKey(s, k)` (R116). -/
def addRoundKey (s k : Block) : Block := s.xor k

/-- `SubBytes(s)` (R117). -/
def subBytes (s : Block) : Block := s.mapColumns (Column.map sbox)

/-- `InvSubBytes(s)` (R117). -/
def invSubBytes (s : Block) : Block := s.mapColumns (Column.map invSbox)

/-- `ShiftRows(s)` (R118): row `r` of column `c` comes from column `c + r`. -/
def shiftRows (s : Block) : Block :=
  ⟨⟨s.c0.r0, s.c1.r1, s.c2.r2, s.c3.r3⟩, ⟨s.c1.r0, s.c2.r1, s.c3.r2, s.c0.r3⟩,
   ⟨s.c2.r0, s.c3.r1, s.c0.r2, s.c1.r3⟩, ⟨s.c3.r0, s.c0.r1, s.c1.r2, s.c2.r3⟩⟩

/-- `InvShiftRows(s)` (R118): row `r` of column `c` comes from column `c - r`. -/
def invShiftRows (s : Block) : Block :=
  ⟨⟨s.c0.r0, s.c3.r1, s.c2.r2, s.c1.r3⟩, ⟨s.c1.r0, s.c0.r1, s.c3.r2, s.c2.r3⟩,
   ⟨s.c2.r0, s.c1.r1, s.c0.r2, s.c3.r3⟩, ⟨s.c3.r0, s.c2.r1, s.c1.r2, s.c0.r3⟩⟩

/-- The circulant matrix with first row `m0 m1 m2 m3` times a column (R119). -/
def circulant (m0 m1 m2 m3 : Byte) (a : Column) : Column :=
  ⟨gmul m0 a.r0 ^^^ gmul m1 a.r1 ^^^ gmul m2 a.r2 ^^^ gmul m3 a.r3,
   gmul m3 a.r0 ^^^ gmul m0 a.r1 ^^^ gmul m1 a.r2 ^^^ gmul m2 a.r3,
   gmul m2 a.r0 ^^^ gmul m3 a.r1 ^^^ gmul m0 a.r2 ^^^ gmul m1 a.r3,
   gmul m1 a.r0 ^^^ gmul m2 a.r1 ^^^ gmul m3 a.r2 ^^^ gmul m0 a.r3⟩

/-- `MixColumns` on one column (R119): first row 02 03 01 01. -/
def mixColumn (a : Column) : Column := circulant 0x02 0x03 0x01 0x01 a

/-- `InvMixColumns` on one column (R119): first row 0e 0b 0d 09. -/
def invMixColumn (a : Column) : Column := circulant 0x0e 0x0b 0x0d 0x09 a

/-- `MixColumns(s)` (R119). -/
def mixColumns (s : Block) : Block := s.mapColumns mixColumn

/-- `InvMixColumns(s)` (R119). -/
def invMixColumns (s : Block) : Block := s.mapColumns invMixColumn

/-- Full round `n` of encryption (R120). -/
def encRound (w : List Word) (st : Block) (n : Nat) : Block :=
  addRoundKey (mixColumns (shiftRows (subBytes st))) (roundKey w n)

/-- The final round of encryption (R120). -/
def encFinal (w : List Word) (st : Block) : Block :=
  addRoundKey (shiftRows (subBytes st)) (roundKey w 10)

/-- Full round of decryption with round key `n` (R121). -/
def decRound (w : List Word) (st : Block) (n : Nat) : Block :=
  invMixColumns (addRoundKey (invSubBytes (invShiftRows st)) (roundKey w n))

/-- The final round of decryption (R121). -/
def decFinal (w : List Word) (st : Block) : Block :=
  addRoundKey (invSubBytes (invShiftRows st)) (roundKey w 0)

/-- `EncryptBlock(b, w)` (R120). -/
def encryptBlock (w : List Word) (b : Block) : Block :=
  encFinal w ([1, 2, 3, 4, 5, 6, 7, 8, 9].foldl (encRound w) (addRoundKey b (roundKey w 0)))

/-- `DecryptBlock(b, w)` (R121). -/
def decryptBlock (w : List Word) (b : Block) : Block :=
  decFinal w ([9, 8, 7, 6, 5, 4, 3, 2, 1].foldl (decRound w) (addRoundKey b (roundKey w 10)))

end Sys2Proof.Machine
end

