-- ==== Sys2Proof/Machine/ModeWrapper.lean ====
section
/-! DEFINITION. MODE, the ECB/CBC mode wrapper (`43_aes_mode_wrapper.md`): the hex codec R136, R137, the checks
R138 to R140, padding R141, R142, the modes R143 to R145 and the whole AES operation R146. -/

namespace Sys2Proof.Machine

/-- `HexVal(c)` (R136, R62): the digit's value, or `none` for a code that is no hex digit. -/
def hexVal (c : Byte) : Option (BitVec 4) :=
  if 0x30 ≤ c.toNat ∧ c.toNat ≤ 0x39 then some (BitVec.ofNat 4 (c.toNat - 0x30))
  else if 0x41 ≤ c.toNat ∧ c.toNat ≤ 0x46 then some (BitVec.ofNat 4 (c.toNat - 0x37))
  else if 0x61 ≤ c.toNat ∧ c.toNat ≤ 0x66 then some (BitVec.ofNat 4 (c.toNat - 0x57))
  else none

/-- `HexDecode(cs)` (R136): two digits per byte, high nibble first; `none` on a character that is no digit and on an
odd number of digits. -/
def hexDecode : List Byte → Option (List Byte)
  | [] => some []
  | [_] => none
  | hi :: lo :: cs =>
    match hexVal hi, hexVal lo, hexDecode cs with
    | some h, some l, some bs => some ((h ++ l) :: bs)
    | _, _, _ => none

/-- `digit(v)` (R137): lower case. -/
def hexDigit (v : BitVec 4) : Byte :=
  if v.toNat ≤ 9 then BitVec.ofNat 8 (0x30 + v.toNat) else BitVec.ofNat 8 (0x57 + v.toNat)

/-- `HexEncode(bs)` (R137). -/
def hexEncode : List Byte → List Byte
  | [] => []
  | b :: bs => hexDigit (b.extractLsb' 4 4) :: hexDigit (b.extractLsb' 0 4) :: hexEncode bs

/-- The number of padding bytes, 1 to 16 (R141). -/
def padCount (bs : List Byte) : Nat := 16 - bs.length % 16

/-- `Pad(bs)` (R141). -/
def pad (bs : List Byte) : List Byte := bs ++ List.replicate (padCount bs) (BitVec.ofNat 8 (padCount bs))

/-- `Unpad(bs)` (R142). DESIGN CHOICE (log 14) on a length that is no positive multiple of 16, where R142 does not apply:
it fails on an empty sequence and otherwise makes the same test. -/
def unpad (bs : List Byte) : Option (List Byte) :=
  match bs.getLast? with
  | none => none
  | some n =>
    if n.toNat < 1 ∨ 16 < n.toNat then none
    else if (bs.drop (bs.length - n.toNat)).all (· == n) then some (bs.take (bs.length - n.toNat))
    else none

/-- `n` Blocks from the front of `bs`. -/
def takeBlocks : Nat → List Byte → List Block
  | 0, _ => []
  | n + 1, bs => Block.ofBytes (bs.take 16) :: takeBlocks n (bs.drop 16)

/-- The Blocks `B_0 .. B_{m-1}` of a sequence of `16m` bytes (R143). DESIGN CHOICE (log 14) on any other length, which
R143 to R145 do not define although R8 calls the four mode functions total: the bytes after the last whole Block are
dropped. No command gets there (R140, R141). -/
def toBlocks (bs : List Byte) : List Block := takeBlocks (bs.length / 16) bs

/-- Joining Blocks (R143). -/
def joinBlocks (bs : List Block) : List Byte := bs.flatMap Block.toBytes

/-- `EcbEncrypt(bs, w)` (R144); on a part of a Block at the end, see `toBlocks` (log 14). -/
def ecbEncrypt (w : List Word) (bs : List Byte) : List Byte := joinBlocks ((toBlocks bs).map (encryptBlock w))

/-- `EcbDecrypt(bs, w)` (R144); on a part of a Block at the end, see `toBlocks` (log 14). -/
def ecbDecrypt (w : List Word) (bs : List Byte) : List Byte := joinBlocks ((toBlocks bs).map (decryptBlock w))

/-- The blocks of `CbcEncrypt` from the previous ciphertext block on (R145): `C_j = EncryptBlock(B_j ^ C_{j-1}, w)`. -/
def cbcEncryptBlocks (w : List Word) : Block → List Block → List Block
  | _, [] => []
  | prev, b :: bs => let c := encryptBlock w (b.xor prev); c :: cbcEncryptBlocks w c bs

/-- The blocks of `CbcDecrypt` from the previous ciphertext block on (R145): `P_j = DecryptBlock(B_j, w) ^ B_{j-1}`. -/
def cbcDecryptBlocks (w : List Word) : Block → List Block → List Block
  | _, [] => []
  | prev, b :: bs => (decryptBlock w b).xor prev :: cbcDecryptBlocks w b bs

/-- `CbcEncrypt(bs, w, iv)` (R145); on a part of a Block at the end, see `toBlocks` (log 14). -/
def cbcEncrypt (w : List Word) (iv : Block) (bs : List Byte) : List Byte :=
  joinBlocks (cbcEncryptBlocks w iv (toBlocks bs))

/-- `CbcDecrypt(bs, w, iv)` (R145); on a part of a Block at the end, see `toBlocks` (log 14). -/
def cbcDecrypt (w : List Word) (iv : Block) (bs : List Byte) : List Byte :=
  joinBlocks (cbcDecryptBlocks w iv (toBlocks bs))

/-- The key's checks (R138, R139): hex, then 16 bytes. -/
def checkKey (kc : List Byte) : Except Err Block :=
  match hexDecode kc with
  | none => .error .encoding
  | some kb => if kb.length = 16 then .ok (Block.ofBytes kb) else .error .keyLength

/-- The data's checks (R140): hex, then, but for CBC encryption, a multiple of 16 bytes, then, for CBC decryption, at
least one block. -/
def checkData (dir : Dir) (mode : Mode) (ic : List Byte) : Except Err (List Byte) :=
  match hexDecode ic with
  | none => .error .encoding
  | some db =>
    if (mode = .ecb ∨ dir = .decrypt) ∧ db.length % 16 ≠ 0 then .error .blockAlignment
    else if mode = .cbc ∧ dir = .decrypt ∧ db.length = 0 then .error .padding
    else .ok db

/-- All checks that precede the cipher, the key's before the data's (R146): the key and the decoded data. -/
def aesCheck (dir : Dir) (mode : Mode) (kc ic : List Byte) : Except Err (Block × List Byte) :=
  match checkKey kc with
  | .error e => .error e
  | .ok key =>
    match checkData dir mode ic with
    | .error e => .error e
    | .ok db => .ok (key, db)

/-- The cipher work of R146 on checked operands: the bytes of the result, or `none` where the padding is bad. -/
def aesCipher (dir : Dir) (mode : Mode) (w : List Word) (db : List Byte) (iv : Block) : Option (List Byte) :=
  match mode, dir with
  | .ecb, .encrypt => some (ecbEncrypt w db)
  | .ecb, .decrypt => some (ecbDecrypt w db)
  | .cbc, .encrypt => some (cbcEncrypt w iv (pad db))
  | .cbc, .decrypt => unpad (cbcDecrypt w iv db)

/-- `AesRun(dir, mode, kc, ic, iv)` (R146): the hex digits of the result, or the error raised. -/
def aesRun (dir : Dir) (mode : Mode) (kc ic : List Byte) (iv : Block) : Except Err (List Byte) :=
  match aesCheck dir mode kc ic with
  | .error e => .error e
  | .ok (key, db) =>
    match aesCipher dir mode (keyExpand key) db iv with
    | none => .error .padding
    | some r => .ok (hexEncode r)

end Sys2Proof.Machine
end

