-- ==== Sys2Proof/Machine/Sce.lean ====
section
/-! DEFINITION. SCE, the shift cipher engine (`40_shift_cipher.md`): R81 to R86. -/

namespace Sys2Proof.Machine

/-- `NormShift(s)` (R81): the floor remainder by 26 of the signed operand, in [0, 25]. -/
def normShift (s : Word) : Nat := (s.toInt % 26).toNat

/-- `EffShift(s, dir)` (R82): the amount added to each letter index. -/
def effShift (s : Word) : Dir → Nat
  | .encrypt => normShift s
  | .decrypt => (26 - normShift s) % 26

/-- `IsUpper(c)` (R83). -/
def isUpper (c : Byte) : Bool := decide (0x41 ≤ c.toNat ∧ c.toNat ≤ 0x5A)

/-- `IsLower(c)` (R83). -/
def isLower (c : Byte) : Bool := decide (0x61 ≤ c.toNat ∧ c.toNat ≤ 0x7A)

/-- `IsAlpha(c)` (R83). -/
def isAlpha (c : Byte) : Bool := isUpper c || isLower c

/-- `Rot(c, ke)` (R84): a letter moves by `ke` within its case, any other code is itself. R84 defines it for `ke` up to
25; above that the same formula is a DESIGN CHOICE (log 14). -/
def rot (ke : Nat) (c : Byte) : Byte :=
  if isUpper c then BitVec.ofNat 8 (0x41 + (c.toNat - 0x41 + ke) % 26)
  else if isLower c then BitVec.ofNat 8 (0x61 + (c.toNat - 0x61 + ke) % 26)
  else c

/-- `ShiftTransform(text, s, dir)` (R85). -/
def shiftTransform (text : List Byte) (s : Word) (dir : Dir) : List Byte :=
  text.map (rot (effShift s dir))

/-- The trace entry of the character `c` at index `i`, if one is due (R86). -/
def traceEntry? (ke : Nat) (c : Byte) (i : Nat) : Option TraceEntry :=
  if isAlpha c then some ⟨c, rot ke c, BitVec.ofNat 15 i⟩ else none

/-- `ShiftTrace(text, s, dir)` (R86): one entry per letter, in increasing index. -/
def shiftTrace (text : List Byte) (s : Word) (dir : Dir) : List TraceEntry :=
  text.zipIdx.filterMap fun p => traceEntry? (effShift s dir) p.1 p.2

end Sys2Proof.Machine
end

