-- ==== Sys2Proof/Machine/Engine.lean ====
section
/-! DEFINITION. The engine's normative step (`44_cipher_engine_control.md`): the result of an operation as a function
of the latched command and the operand state, `Exec` R171, and the completion step R172. -/

namespace Sys2Proof.Machine

/-- What `Exec` returns (R171). -/
inductive Result where
  | ok (out : List Byte) (trace : List TraceEntry)
  | err (e : Err)
  deriving DecidableEq, Repr

/-- `Exec` of a shift command once OVF is known to be 0 (R89, R90, R171). -/
def shiftResult (cmd : Cmd) (ops : Operands) : Result :=
  if cmd.sinv then .err .invalidShift
  else .ok (shiftTransform ops.text ops.shift cmd.dir)
    (if cmd.t then shiftTrace ops.text ops.shift cmd.dir else [])

/-- `Exec` of an AES command once OVF is known to be 0 (R150 to R153, R171). -/
def aesResult (cmd : Cmd) (ops : Operands) : Result :=
  match aesRun cmd.dir cmd.mode ops.key ops.text ops.iv with
  | .ok out => .ok out []
  | .error e => .err e

/-- `Exec(cmd, ops)` (R171). -/
def engineResult (cmd : Cmd) (ops : Operands) : Result :=
  if ops.ovf then .err .overflow
  else match cmd.alg with
    | .shift => shiftResult cmd ops
    | .aes => aesResult cmd ops

/-- Writing a result into the result state (R172): commit it, or deliver its error. -/
def conclude (r : Result) (s : State) : State :=
  match r with
  | .ok out trace => commit out trace s
  | .err e => deliver e s

/-- The effect of the completion step (R172) on a running operation. -/
def complete (s : State) : State := conclude (engineResult s.curCmd s.operands) s

/-- The engine's turn (R166): the completion step, enabled exactly when BUSY = 1. -/
def engineTurn (s : State) : State := if s.busy then complete s else s

end Sys2Proof.Machine
end

