-- ==== Sys2Proof/Machine/Micro.lean ====
section
/-! DEFINITION. The reference sequence of one operation (`42_aes_state_machine.md` R124) over the engine working
storage of `10_state.md` R24: one small piece of work per micro-step, up to S_COMMIT. Nothing of it is exposed (R56);
its result must equal the completion step's (R124). -/

namespace Sys2Proof.Machine

/-- Where the sequence goes on an error: to S_COMMIT with the error noted (R124). -/
def workFail (e : Err) (wk : Work) : Work := { wk with seq := .commit, out := [], trace := [], err := some e }

/-- S_SHIFT(i), or S_COMMIT when every character is done. -/
def shiftSeq (len i : Nat) : Seq := if i < len then .shift i else .commit

/-- S_LOAD(j), or what follows the last block: S_UNPAD for CBC decryption, else S_COMMIT. -/
def blockSeq (cmd : Cmd) (m j : Nat) : Seq :=
  if j < m then .load j
  else if cmd.mode = .cbc ∧ cmd.dir = .decrypt then .unpad
  else .commit

/-- The message the blocks are cut from: padded for CBC encryption (R146). -/
def message (cmd : Cmd) (db : List Byte) : List Byte :=
  if cmd.mode = .cbc ∧ cmd.dir = .encrypt then pad db else db

/-- Block `j` of the message (R143); bytes the message does not have count as 0 (log 14). -/
def workBlock (wk : Work) (j : Nat) : Block := Block.ofBytes (wk.msg.drop (16 * j))

/-- S_VALIDATE: the checks of R171 in priority order, and the set-up of what the next states use. -/
def microValidate (cmd : Cmd) (ops : Operands) (wk : Work) : Work :=
  if ops.ovf then workFail .overflow wk
  else match cmd.alg with
    | .shift =>
      if cmd.sinv then workFail .invalidShift wk
      else { wk with
        seq := shiftSeq ops.text.length 0
        ke := BitVec.ofNat 5 (effShift ops.shift cmd.dir)
        out := [], trace := [], err := none }
    | .aes =>
      match aesCheck cmd.dir cmd.mode ops.key ops.text with
      | .error e => workFail e wk
      | .ok (key, db) =>
        { wk with
          seq := .keyExp 4
          key := key
          w := keyWords key
          msg := message cmd db
          chain := ops.iv
          out := [], trace := [], err := none }

/-- S_SHIFT(i): one character, and its trace entry if T and it is a letter; a character the text does not have counts as
0 (log 14). -/
def microShift (cmd : Cmd) (ops : Operands) (wk : Work) (i : Nat) : Work :=
  let c := ops.text.getD i 0
  { wk with
    seq := shiftSeq ops.text.length (i + 1)
    out := wk.out ++ [rot wk.ke.toNat c]
    trace := if cmd.t then wk.trace ++ (traceEntry? wk.ke.toNat c i).toList else wk.trace }

/-- S_KEYEXP(i): one word of R106. -/
def microKeyExp (cmd : Cmd) (wk : Work) (i : Nat) : Work :=
  { wk with
    seq := if i + 1 < 44 then .keyExp (i + 1) else blockSeq cmd (wk.msg.length / 16) 0
    w := wk.w ++ [nextWord wk.w i] }

/-- S_LOAD(j): the state register takes block `j`, XORed with the chain for CBC encryption. -/
def microLoad (cmd : Cmd) (wk : Work) (j : Nat) : Work :=
  { wk with
    seq := .round j 0
    st := if cmd.mode = .cbc ∧ cmd.dir = .encrypt then (workBlock wk j).xor wk.chain else workBlock wk j }

/-- What S_ROUND(n) makes of the state register (R120, R121): round key `n` in encryption, `10 - n` in decryption. A
counter above 10, which R124 does not have, counts as 10 (log 14). -/
def roundState (dir : Dir) (w : List Word) (st : Block) (n : Nat) : Block :=
  match dir with
  | .encrypt =>
    if n = 0 then addRoundKey st (roundKey w 0)
    else if n < 10 then encRound w st n
    else encFinal w st
  | .decrypt =>
    if n = 0 then addRoundKey st (roundKey w 10)
    else if n < 10 then decRound w st (10 - n)
    else decFinal w st

/-- S_ROUND(n) on block `j`. -/
def microRound (cmd : Cmd) (wk : Work) (j n : Nat) : Work :=
  { wk with
    seq := if n < 10 then .round j (n + 1) else .store j
    st := roundState cmd.dir wk.w wk.st n }

/-- S_STORE(j): the result block is the state register, XORed with the chain for CBC decryption; the chain takes the
ciphertext block. -/
def microStore (cmd : Cmd) (wk : Work) (j : Nat) : Work :=
  let r := if cmd.mode = .cbc ∧ cmd.dir = .decrypt then wk.st.xor wk.chain else wk.st
  { wk with
    seq := blockSeq cmd (wk.msg.length / 16) (j + 1)
    out := wk.out ++ r.toBytes
    chain := match cmd.dir with
      | .encrypt => wk.st
      | .decrypt => workBlock wk j }

/-- S_UNPAD: the padding check and removal of CBC decryption. -/
def microUnpad (wk : Work) : Work :=
  match unpad wk.out with
  | none => workFail .padding wk
  | some r => { wk with seq := .commit, out := r }

/-- One micro-step of the reference sequence (R124). At S_COMMIT the engine waits for the completion step. -/
def microStep (cmd : Cmd) (ops : Operands) (wk : Work) : Work :=
  match wk.seq with
  | .validate => microValidate cmd ops wk
  | .shift i => microShift cmd ops wk i
  | .keyExp i => microKeyExp cmd wk i
  | .load j => microLoad cmd wk j
  | .round j n => microRound cmd wk j n
  | .store j => microStore cmd wk j
  | .unpad => microUnpad wk
  | .commit => wk

/-- `n` micro-steps. -/
def microSteps (cmd : Cmd) (ops : Operands) : Nat → Work → Work
  | 0, wk => wk
  | n + 1, wk => microSteps cmd ops n (microStep cmd ops wk)

/-- The result the working storage holds at S_COMMIT, as the completion step would write it: an AES result leaves
the block as hex (R123, R135). -/
def workResult (cmd : Cmd) (wk : Work) : Result :=
  match wk.err with
  | some e => .err e
  | none =>
    match cmd.alg with
    | .shift => .ok wk.out wk.trace
    | .aes => .ok (hexEncode wk.out) []

/-- The number of micro-steps from S_VALIDATE to S_COMMIT (R216, whose figures count the completion step too):
validation, then one per character, or 40 words, 13 per block and the unpadding. -/
def referenceSteps (cmd : Cmd) (ops : Operands) : Nat :=
  if ops.ovf then 1
  else match cmd.alg with
    | .shift => if cmd.sinv then 1 else 1 + ops.text.length
    | .aes =>
      match aesCheck cmd.dir cmd.mode ops.key ops.text with
      | .error _ => 1
      | .ok (_, db) =>
        1 + 40 + 13 * ((message cmd db).length / 16)
          + (if cmd.mode = .cbc ∧ cmd.dir = .decrypt then 1 else 0)

/-- The engine's internal turn (R56): one micro-step while an operation runs, nothing otherwise. -/
def microTurn (s : State) : State :=
  if s.busy then s.setWork (microStep s.curCmd s.operands s.work) else s

end Sys2Proof.Machine
end

