-- ==== Sys2Proof/Machine/Port.lean ====
section
/-! DEFINITION. The host port (`20_memory.md`, `10_state.md` R18): the register window, reads R44, R49, R50, writes
R43, R45 to R48, commands R168, and the effect of one turn of the total order (R56, R166). -/

namespace Sys2Proof.Machine

/-- The sixteen registers of the window (R18). -/
inductive Reg where
  | ctrl
  | status
  | shift
  | iv0
  | iv1
  | iv2
  | iv3
  | keyPush
  | inPush
  | keyLen
  | inLen
  | outLen
  | outPop
  | traceLen
  | tracePop
  | cap
  deriving DecidableEq, Repr

/-- The byte offset of a register from BASE (R18). -/
def Reg.offset : Reg → Nat
  | .ctrl => 0x00
  | .status => 0x04
  | .shift => 0x08
  | .iv0 => 0x0C
  | .iv1 => 0x10
  | .iv2 => 0x14
  | .iv3 => 0x18
  | .keyPush => 0x1C
  | .inPush => 0x20
  | .keyLen => 0x24
  | .inLen => 0x28
  | .outLen => 0x2C
  | .outPop => 0x30
  | .traceLen => 0x34
  | .tracePop => 0x38
  | .cap => 0x3C

/-- The register at an offset; all 16 word offsets are assigned (R42), any other is no register. -/
def regAt? : Nat → Option Reg
  | 0x00 => some .ctrl
  | 0x04 => some .status
  | 0x08 => some .shift
  | 0x0C => some .iv0
  | 0x10 => some .iv1
  | 0x14 => some .iv2
  | 0x18 => some .iv3
  | 0x1C => some .keyPush
  | 0x20 => some .inPush
  | 0x24 => some .keyLen
  | 0x28 => some .inLen
  | 0x2C => some .outLen
  | 0x30 => some .outPop
  | 0x34 => some .traceLen
  | 0x38 => some .tracePop
  | 0x3C => some .cap
  | _ => none

/-- Which register a bus access reaches (R40 to R42): an aligned 32-bit access inside the window, else refused by
name (U1, log 10). -/
def windowReg (cfg : Config) (addr size : Nat) : Except Refusal Reg :=
  if addr < cfg.base ∨ cfg.base + 64 ≤ addr then .error (.outsideWindow addr)
  else if size ≠ 4 then .error (.notWordAccess addr size)
  else match regAt? (addr - cfg.base) with
    | some r => .ok r
    | none => .error (.notWordAccess addr size)

/-- The value a HostRead of a register returns (R43, R44, R49, R50). -/
def readValue (r : Reg) (s : State) : Word :=
  match r with
  | .ctrl => 0
  | .status => statusWord s
  | .shift => s.shift
  | .iv0 => s.iv0
  | .iv1 => s.iv1
  | .iv2 => s.iv2
  | .iv3 => s.iv3
  | .keyPush => 0
  | .inPush => 0
  | .keyLen => lengthWord s.keyBuf.length
  | .inLen => lengthWord s.inBuf.length
  | .outLen => lengthWord s.outBuf.length
  | .outPop => outWord (nextOut s)
  | .traceLen => lengthWord s.traceBuf.length
  | .tracePop => traceWord (nextTrace s)
  | .cap => capWord s.cfg

/-- The side effect of a HostRead: only the two pop registers have one (R44, R53). -/
def readEffect (r : Reg) (s : State) : State :=
  match r with
  | .outPop => popOut s
  | .tracePop => popTrace s
  | _ => s

/-- `HostRead` (R44): the value is returned, legal in every state. -/
def hostRead (r : Reg) (s : State) : State := (readEffect r s).setReadData (readValue r s)

/-- The effect of a write to a register other than CTRL while BUSY = 0 (R43, R46, R47, R48). -/
def writeEffect (r : Reg) (d : Word) (s : State) : State :=
  match r with
  | .shift => s.setShift d
  | .iv0 => s.setIv0 d
  | .iv1 => s.setIv1 d
  | .iv2 => s.setIv2 d
  | .iv3 => s.setIv3 d
  | .keyPush => pushKey (pushedChar d) s
  | .inPush => pushIn (pushedChar d) s
  | .ctrl => s
  | .status => s
  | .keyLen => s
  | .inLen => s
  | .outLen => s
  | .outPop => s
  | .traceLen => s
  | .tracePop => s
  | .cap => s

/-- A write to CTRL (R168): the decoded command's meaning, or the illegal command's (R176). -/
def command (c : Word) (s : State) : Host.Outcome State Fault Refusal :=
  match decode s.cfg.hasCbc c with
  | some i => exec i s
  | none => whenIdle illegalCommand s

/-- `HostWrite` (R43, R45 to R48, R168). -/
def hostWrite (r : Reg) (d : Word) (s : State) : Host.Outcome State Fault Refusal :=
  match r with
  | .ctrl => command d s
  | _ => whenIdle (writeEffect r d) s

/-- The effect of one turn (R166). -/
def takeTurn (t : Turn) (s : State) : Host.Outcome State Fault Refusal :=
  match t with
  | .write addr size d =>
    match windowReg s.cfg addr size with
    | .ok r => hostWrite r d s
    | .error e => .refused e
  | .read addr size =>
    match windowReg s.cfg addr size with
    | .ok r => .next (hostRead r s)
    | .error e => .refused e
  | .engine => .next (engineTurn s)
  | .micro => .next (microTurn s)
  | .reset => .next (applyReset s)

/-- The next turn of the total order; when none is listed the engine moves if it can (progress, R173, log 2). -/
def runTurn (s : State) : Host.Outcome State Fault Refusal :=
  match s.pending with
  | [] => .next (engineTurn s)
  | t :: ts => takeTurn t (s.setPending ts)

/-- `HostWrite(off of r, d)` as a turn (R7, R73 `WR`). -/
def writeTurn (cfg : Config) (r : Reg) (d : Word) : Turn := .write (cfg.base + r.offset) 4 d

/-- `HostRead(off of r)` as a turn (R7, R73 `RD`). -/
def readTurn (cfg : Config) (r : Reg) : Turn := .read (cfg.base + r.offset) 4

/-- The host's write of a command word to CTRL (R60, R73 `CMD`), its bits numbered as the opcode table numbers them. -/
def commandTurn (cfg : Config) (nbits w : Nat) : Turn := writeTurn cfg .ctrl (BitVec.ofNat 32 (w % 2 ^ nbits))

end Sys2Proof.Machine
end

