-- ==== Sys2Proof/Machine/Step.lean ====
section
/-! DEFINITION. One step of the machine: one turn of the total order of R56. -/

namespace Sys2Proof.Machine

/-- One step (`44_cipher_engine_control.md` R166). -/
def step : State → Host.Outcome State Fault Refusal := runTurn

/-- `s` with the host about to write the command word `w` to CTRL (log 3): the block fetches no instructions (R11),
so this is where the next one comes from. -/
def State.withFetchWord (s : State) (nbits w : Nat) : State :=
  s.setPending (commandTurn s.cfg nbits w :: s.pending)

end Sys2Proof.Machine
end

