-- ==== Sys2Proof/Safety.lean ====
section
/-! DEFINITION. The terms in which claims are stated: the invariants of `10_state.md` R30, what a turn of the host is,
what a finished operation leaves, and the events that R10, R17 and R19 to R22 allow to write each piece of state. -/

namespace Sys2Proof.Machine

/-- The invariants of every reachable state (R30), with the range of IN_DEPTH (R6); for (g), see log 5. -/
structure State.Inv (s : State) : Prop where
  /-- IN_DEPTH is in R6's range. -/
  cfg_wf : s.cfg.wf = true
  /-- (a) `key_len <= 64`. -/
  key_fits : s.keyBuf.length ≤ Config.keyDepth
  /-- (a) `in_len <= IN_DEPTH`. -/
  in_fits : s.inBuf.length ≤ s.cfg.inDepth
  /-- (a) `out_len <= OUT_DEPTH`. -/
  out_fits : s.outBuf.length ≤ s.cfg.outDepth
  /-- (a) `trace_len <= TRACE_DEPTH`. -/
  trace_fits : s.traceBuf.length ≤ s.cfg.traceDepth
  /-- (b) `out_rp <= out_len`. -/
  outRp_le : s.outRp ≤ s.outBuf.length
  /-- (b) `trace_rp <= trace_len`. -/
  traceRp_le : s.traceRp ≤ s.traceBuf.length
  /-- (c), (d) BUSY = 1 implies DONE = 0, ERR = 0 and empty result buffers. -/
  busy_empty : s.busy = true → s.done = false ∧ s.err = none ∧ s.outBuf = [] ∧ s.traceBuf = []
  /-- (e) ERR ≠ 0 implies empty result buffers. -/
  err_empty : s.err ≠ none → s.outBuf = [] ∧ s.traceBuf = []
  /-- (f) DONE = 0 implies ERR = 0. -/
  not_done_no_err : s.done = false → s.err = none
  /-- (g) a trace is that of a shift command with T = 1; the last completed operation is the last one latched,
  because acceptance empties the trace; that `cur_cmd` still tells it while IDLE is the model's choice (log 5). -/
  trace_of_shift : s.traceBuf ≠ [] → s.curCmd.alg = .shift ∧ s.curCmd.t = true

/-- `k` steps of the machine. -/
abbrev runSteps (k : Nat) (s : State) : Host.Outcome State Fault Refusal := Host.Core.run Sys2Proof.core k s

/-- The turn is a host access that reaches a register of the window (R41, R42). -/
def Turn.reaches (cfg : Config) : Turn → Bool
  | .write addr size _ => (windowReg cfg addr size).isOk
  | .read addr size => (windowReg cfg addr size).isOk
  | .engine => false
  | .micro => false
  | .reset => false

/-- The turn is one the environment can take at this interface: not an access that U1 refuses. -/
def Turn.ok (cfg : Config) : Turn → Bool
  | .write addr size _ => (windowReg cfg addr size).isOk
  | .read addr size => (windowReg cfg addr size).isOk
  | .engine => true
  | .micro => true
  | .reset => true

/-- The state an operation that began in `s` leaves at its end (R170, R172): the command latched, BUSY 0, DONE 1, the
error and the result given, read pointers 0; the engine working storage holds anything (R24); all else is as in `s`.
That `cur_cmd` keeps the command, where R23 calls it meaningless, is the model's choice (log 5). -/
def State.finished (s : State) (cmd : Cmd) (wk : Work) (err : Option Err) (out : List Byte) (trace : List TraceEntry) :
    State :=
  { s with
    phase := .idle, done := true, err := err
    outBuf := out, outRp := 0, traceBuf := trace, traceRp := 0
    curCmd := cmd, work := wk }

/-- A hex digit in lower case (R137, R147): the six codes of `A` to `F` move to `a` to `f`. -/
def lowerDigit (c : Byte) : Byte := if 0x41 ≤ c.toNat ∧ c.toNat ≤ 0x46 then c + 0x20 else c

/-- The next turn is a host write of `d` to `r` that takes effect: BUSY is 0 (R45). -/
def State.writes (s : State) (r : Reg) (d : Word) : Prop :=
  s.busy = false ∧ s.pending.head? = some (writeTurn s.cfg r d)

/-- The next step is an accepted RUN command (R170). -/
def State.runs (s : State) : Prop :=
  ∃ c i cmd, s.writes .ctrl c ∧ decode s.cfg.hasCbc c = some i ∧ i.run? = some cmd

/-- The next step is CLR (R175). -/
def State.clears (s : State) : Prop := ∃ c, s.writes .ctrl c ∧ decode s.cfg.hasCbc c = some .clr

/-- The next step is an illegal command (R176). -/
def State.illegal (s : State) : Prop := ∃ c, s.writes .ctrl c ∧ decode s.cfg.hasCbc c = none

/-- The next step is the completion step (R172): BUSY is 1 and the engine has its turn, or no turn is listed. -/
def State.completes (s : State) : Prop :=
  s.busy = true ∧ (s.pending = [] ∨ s.pending.head? = some .engine)

/-- The next step is a reset (R205). -/
def State.resets (s : State) : Prop := s.pending.head? = some .reset

/-- The RUN command `i`, issued in `s` and carried to its completion step, ends with ERR = `e`. -/
def State.endsWith (s : State) (i : Instr) (e : Option Err) : Prop :=
  s.busy = false ∧ i.wf s.cfg.hasCbc = true ∧ ∃ s1, exec i s = .next s1 ∧ s1.busy = true ∧ (engineTurn s1).err = e

end Sys2Proof.Machine
end

