-- ==== Sys2Proof/Certificates/Slice0/Obligations.lean ====
section
/-! DEFINITION. The statements for the provers, each of which cites the rules of spec/ it states. -/

open Sys2Proof Sys2Proof.Machine

/-! ### Encoding -/

/-- R63, R64: decoding the word of a legal command gives the command back, and a word that decodes to a command is
legal and is that command's one word. -/
def Obligations.DecodeEncodeAgree : Prop :=
  (∀ (h : Bool) (i : Instr), i.wf h = true → decode h (encode i) = some i) ∧
  (∀ (h : Bool) (c : Word) (i : Instr), decode h c = some i → i.wf h = true ∧ encode i = c)

/-- R71: which words are illegal, the legal ones listed, and what an illegal one does. -/
def Obligations.IllegalCommandWords : Prop :=
  (∀ (h : Bool) (c : Word), decode h c = none ↔
    c.extractLsb' 9 23 ≠ 0 ∨
    3 ≤ (c.extractLsb' 0 4).toNat ∨
    ((c.extractLsb' 0 4 = 0 ∨ c.extractLsb' 0 4 = 2) ∧ c.extractLsb' 4 5 ≠ 0) ∨
    (c.extractLsb' 0 4 = 1 ∧ c.getLsbD 4 = false ∧ c.getLsbD 6 = true) ∨
    (c.extractLsb' 0 4 = 1 ∧ c.getLsbD 4 = true ∧ c.extractLsb' 7 2 ≠ 0) ∨
    (c.extractLsb' 0 4 = 1 ∧ c.getLsbD 4 = true ∧ c.getLsbD 6 = true ∧ h = false)) ∧
  (∀ c : Word, decode true c ≠ none ↔
    c ∈ [0x000#32, 0x002#32, 0x001#32, 0x081#32, 0x101#32, 0x181#32, 0x021#32, 0x0A1#32, 0x121#32, 0x1A1#32,
         0x011#32, 0x031#32, 0x051#32, 0x071#32]) ∧
  (∀ c : Word, decode false c ≠ none ↔
    c ∈ [0x000#32, 0x002#32, 0x001#32, 0x081#32, 0x101#32, 0x181#32, 0x021#32, 0x0A1#32, 0x121#32, 0x1A1#32,
         0x011#32, 0x031#32]) ∧
  (∀ (s : State) (c : Word), s.busy = false → decode s.cfg.hasCbc c = none →
    ∃ t, command c s = .next t ∧ t.err = some .illegalCommand)

/-- R64: words of the opcode map, written out from it, decode to the commands they stand for. -/
def Obligations.OpcodeMapWordsDecode : Prop :=
  decode true 0x00000000#32 = some .nop ∧ decode true 0x00000002#32 = some .clr ∧
  decode true 0x00000181#32 = some (.shiftEnc true true) ∧ decode true 0x000000A1#32 = some (.shiftDec true false) ∧
  decode true 0x00000011#32 = some .aesEcbEnc ∧ decode true 0x00000031#32 = some .aesEcbDec ∧
  decode true 0x00000051#32 = some .aesCbcEnc ∧ decode true 0x00000071#32 = some .aesCbcDec ∧
  decode false 0x00000051#32 = none ∧ decode false 0x00000071#32 = none

/-! ### One step, the window, reset -/

/-- R168: when the next turn writes a command word to CTRL, the step is the meaning of the decoded command in the state
whose turn has been taken; `withFetchWord` places such a turn in front. -/
def Obligations.StepRunsDecodedCommand : Prop :=
  (∀ (s : State) (c : Word) (i : Instr) (rest : List Turn),
    s.pending = writeTurn s.cfg .ctrl c :: rest → decode s.cfg.hasCbc c = some i →
    step s = exec i (s.setPending rest)) ∧
  (∀ (s : State) (nbits w : Nat) (i : Instr), decode s.cfg.hasCbc (BitVec.ofNat 32 (w % 2 ^ nbits)) = some i →
    step (s.withFetchWord nbits w) = exec i s)

/-- R41, R42, R18, U1: an aligned 32-bit access inside the window reaches the register at its offset; every other access
is refused by name. -/
def Obligations.OnlyAlignedWordAccessesInsideWindow : Prop :=
  (∀ (cfg : Config) (r : Reg), windowReg cfg (cfg.base + r.offset) 4 = .ok r) ∧
  (∀ (cfg : Config) (addr size : Nat),
    ((addr < cfg.base ∨ cfg.base + 64 ≤ addr) ∧ windowReg cfg addr size = .error (.outsideWindow addr)) ∨
    ((cfg.base ≤ addr ∧ addr < cfg.base + 64) ∧ (size ≠ 4 ∨ (addr - cfg.base) % 4 ≠ 0) ∧
      windowReg cfg addr size = .error (.notWordAccess addr size)) ∨
    ((cfg.base ≤ addr ∧ addr < cfg.base + 64) ∧ size = 4 ∧ (addr - cfg.base) % 4 = 0 ∧
      ∃ r : Reg, addr = cfg.base + r.offset ∧ windowReg cfg addr size = .ok r)) ∧
  (∀ (s : State) (addr size : Nat) (d : Word) (rest : List Turn) (e : Refusal),
    windowReg s.cfg addr size = .error e →
    (s.pending = .write addr size d :: rest → step s = .refused e) ∧
    (s.pending = .read addr size :: rest → step s = .refused e))

/-- R29: the values after reset, whatever the parameters, and that the engine has no step to take: nothing executes
until the host writes a command. -/
def Obligations.ResetValues : Prop :=
  ∀ cfg : Config,
    (State.resetOf cfg).phase = .idle ∧ statusWord (State.resetOf cfg) = 0 ∧ (State.resetOf cfg).shift = 0 ∧
    (State.resetOf cfg).iv0 = 0 ∧ (State.resetOf cfg).iv1 = 0 ∧ (State.resetOf cfg).iv2 = 0 ∧
    (State.resetOf cfg).iv3 = 0 ∧ (State.resetOf cfg).keyBuf = [] ∧ (State.resetOf cfg).inBuf = [] ∧
    (State.resetOf cfg).outBuf = [] ∧ (State.resetOf cfg).outRp = 0 ∧ (State.resetOf cfg).traceBuf = [] ∧
    (State.resetOf cfg).traceRp = 0 ∧ readValue .cap (State.resetOf cfg) = capWord cfg ∧
    engineTurn (State.resetOf cfg) = State.resetOf cfg ∧ microTurn (State.resetOf cfg) = State.resetOf cfg

/-- R205, R206, R207: a reset turn in any state, an operation running or not, leaves the reset state of the same
instance; no completion step follows, and CAP is as before. The rest of the environment's turns and the value last
returned stay (the model's own, logs 1 and 8); the reset values of `cur_cmd` and the engine working storage are the
model's choice (logs 5 and 6). -/
def Obligations.ResetInAnyState : Prop :=
  ∀ (s : State) (rest : List Turn), s.pending = .reset :: rest →
    ∃ t, step s = .next t ∧ t = { State.resetOf s.cfg with pending := rest, readData := s.readData } ∧
      engineTurn t = t ∧ readValue .cap t = readValue .cap s

/-- R208: a RUN issued straight after reset: a shift command gives an empty output with ERR 0, an AES command gives
KeyLength. -/
def Obligations.RunStraightAfterReset : Prop :=
  ∀ (cfg : Config) (i : Instr) (cmd : Cmd), i.run? = some cmd → i.wf cfg.hasCbc = true →
    ∃ s1, exec i (State.resetOf cfg) = .next s1 ∧ s1.busy = true ∧ (engineTurn s1).outBuf = [] ∧
      (cmd.alg = .shift → cmd.sinv = false → (engineTurn s1).err = none) ∧
      (cmd.alg = .aes → (engineTurn s1).err = some .keyLength)

/-! ### Invariants -/

/-- R30 at reset, for every IN_DEPTH in R6's range. -/
def Obligations.InvariantsAtReset : Prop :=
  (∀ cfg : Config, cfg.wf = true → (State.resetOf cfg).Inv) ∧ State.reset.Inv

/-- R30: every step keeps the invariants, from every state that has them. (g) is read from `cur_cmd`, which the model
keeps while IDLE (its choice, log 5). -/
def Obligations.StepKeepsInvariants : Prop :=
  ∀ s t : State, s.Inv → step s = .next t → t.Inv

/-- R30: every state reachable from reset, whatever the host, the engine and the environment do, has the invariants. (g)
is read from `cur_cmd`, which the model keeps while IDLE (its choice, log 5). -/
def Obligations.ReachableStatesHaveInvariants : Prop :=
  ∀ (cfg : Config) (turns : List Turn) (k : Nat) (t : State), cfg.wf = true →
    runSteps k ((State.resetOf cfg).setPending turns) = .next t → t.Inv

/-- R28, R207: no step changes the parameters, so CAP always reads the same. -/
def Obligations.ParametersNeverChange : Prop :=
  ∀ s t : State, step s = .next t → t.cfg = s.cfg ∧ readValue .cap t = readValue .cap s

/-! ### Host accesses -/

/-- R45: while BUSY = 1 a write to any register with any data changes nothing, and only the completion step or a reset
ends an operation. -/
def Obligations.WritesWhileBusyDropped : Prop :=
  (∀ (s : State) (r : Reg) (d : Word) (rest : List Turn), s.busy = true →
    s.pending = writeTurn s.cfg r d :: rest → step s = .next (s.setPending rest)) ∧
  (∀ s t : State, s.busy = true → step s = .next t → t.busy = false → s.completes ∨ s.resets)

/-- R43: writes to read-only registers change nothing, in every state; reads of write-only registers return 0 and
change nothing. -/
def Obligations.ReadOnlyAndWriteOnlyRegisters : Prop :=
  ∀ (s : State) (rest : List Turn) (d : Word),
    (∀ r ∈ [Reg.status, .keyLen, .inLen, .outLen, .outPop, .traceLen, .tracePop, .cap],
      s.pending = writeTurn s.cfg r d :: rest → step s = .next { s with pending := rest }) ∧
    (∀ r ∈ [Reg.ctrl, .keyPush, .inPush],
      s.pending = readTurn s.cfg r :: rest → step s = .next { s with pending := rest, readData := 0 })

/-- R46: SHIFT and IV0 to IV3 take all 32 bits while BUSY = 0, and nothing else changes. -/
def Obligations.OperandRegisterWrites : Prop :=
  ∀ (s : State) (rest : List Turn) (d : Word), s.busy = false →
    (s.pending = writeTurn s.cfg .shift d :: rest → step s = .next { s with pending := rest, shift := d }) ∧
    (s.pending = writeTurn s.cfg .iv0 d :: rest → step s = .next { s with pending := rest, iv0 := d }) ∧
    (s.pending = writeTurn s.cfg .iv1 d :: rest → step s = .next { s with pending := rest, iv1 := d }) ∧
    (s.pending = writeTurn s.cfg .iv2 d :: rest → step s = .next { s with pending := rest, iv2 := d }) ∧
    (s.pending = writeTurn s.cfg .iv3 d :: rest → step s = .next { s with pending := rest, iv3 := d })

/-- R47: KEY_PUSH while BUSY = 0 appends the low byte, whatever the character, or sets OVF when the buffer is full. -/
def Obligations.KeyPushAppendsOrOverflows : Prop :=
  ∀ (s : State) (rest : List Turn) (d : Word), s.busy = false → s.pending = writeTurn s.cfg .keyPush d :: rest →
    (s.keyBuf.length < 64 →
      step s = .next { s with pending := rest, keyBuf := s.keyBuf ++ [d.extractLsb' 0 8] }) ∧
    (64 ≤ s.keyBuf.length → step s = .next { s with pending := rest, ovf := true })

/-- R48: IN_PUSH while BUSY = 0 appends the low byte or sets OVF; OVF stays 1 until CLR or reset, and while it is 1
every operation completes with Overflow. -/
def Obligations.InPushAppendsOrOverflows : Prop :=
  (∀ (s : State) (rest : List Turn) (d : Word), s.busy = false → s.pending = writeTurn s.cfg .inPush d :: rest →
    (s.inBuf.length < s.cfg.inDepth →
      step s = .next { s with pending := rest, inBuf := s.inBuf ++ [d.extractLsb' 0 8] }) ∧
    (s.cfg.inDepth ≤ s.inBuf.length → step s = .next { s with pending := rest, ovf := true })) ∧
  (∀ s t : State, step s = .next t → s.ovf = true → t.ovf = true ∨ s.clears ∨ s.resets) ∧
  (∀ s t : State, step s = .next t → s.ovf = true → s.completes → t.err = some .overflow)

/-- R49: OUT_POP in any state returns VALID and the next character and passes it, or returns 0; nothing else changes,
so that OUT_LEN keeps the whole length; the read pointer returns to 0 only at the acceptance of RUN, at an illegal
command, at CLR and at reset. -/
def Obligations.OutPopReturnsNextCharacter : Prop :=
  (∀ (s : State) (rest : List Turn), s.pending = readTurn s.cfg .outPop :: rest →
    (∀ c, s.outBuf[s.outRp]? = some c →
      step s = .next { s with pending := rest, outRp := s.outRp + 1, readData := 1#1 ++ 0#23 ++ c }) ∧
    (s.outBuf.length ≤ s.outRp → step s = .next { s with pending := rest, readData := 0 })) ∧
  (∀ s t : State, s.Inv → step s = .next t →
    t.outRp = s.outRp ∨
    (t.outRp = s.outRp + 1 ∧ s.pending.head? = some (readTurn s.cfg .outPop)) ∨
    (t.outRp = 0 ∧ (s.runs ∨ s.illegal ∨ s.clears ∨ s.resets)))

/-- R50: TRACE_POP in any state returns VALID, pos, out and in of the next entry and passes it, or returns 0. -/
def Obligations.TracePopReturnsNextEntry : Prop :=
  ∀ (s : State) (rest : List Turn), s.pending = readTurn s.cfg .tracePop :: rest →
    (∀ e, s.traceBuf[s.traceRp]? = some e →
      step s = .next { s with pending := rest, traceRp := s.traceRp + 1,
                              readData := 1#1 ++ e.pos ++ e.outSym ++ e.inSym }) ∧
    (s.traceBuf.length ≤ s.traceRp → step s = .next { s with pending := rest, readData := 0 })

/-- R49, R50: popping from the start returns the characters, and the entries, in order, element 0 first: the pop after
`k` others returns element `k`. -/
def Obligations.PopsReadTheResultInOrder : Prop :=
  (∀ (s : State) (k : Nat) (c : Byte) (rest : List Turn), s.outRp = 0 → s.outBuf[k]? = some c →
    s.pending = List.replicate (k + 1) (readTurn s.cfg .outPop) ++ rest →
    runSteps (k + 1) s = .next { s with pending := rest, outRp := k + 1, readData := 1#1 ++ 0#23 ++ c }) ∧
  (∀ (s : State) (k : Nat) (e : TraceEntry) (rest : List Turn), s.traceRp = 0 → s.traceBuf[k]? = some e →
    s.pending = List.replicate (k + 1) (readTurn s.cfg .tracePop) ++ rest →
    runSteps (k + 1) s = .next { s with pending := rest, traceRp := k + 1,
                                        readData := 1#1 ++ e.pos ++ e.outSym ++ e.inSym })

/-- R44: a read of any register but the two pops is legal in every state, returns that register's value and changes
nothing; while BUSY = 1 the result lengths read 0 and both pops return "empty" and change nothing. -/
def Obligations.ReadsAreLegalInEveryState : Prop :=
  (∀ (s : State) (rest : List Turn),
    (s.pending = readTurn s.cfg .status :: rest → step s = .next { s with pending := rest, readData := statusWord s }) ∧
    (s.pending = readTurn s.cfg .shift :: rest → step s = .next { s with pending := rest, readData := s.shift }) ∧
    (s.pending = readTurn s.cfg .iv0 :: rest → step s = .next { s with pending := rest, readData := s.iv0 }) ∧
    (s.pending = readTurn s.cfg .iv1 :: rest → step s = .next { s with pending := rest, readData := s.iv1 }) ∧
    (s.pending = readTurn s.cfg .iv2 :: rest → step s = .next { s with pending := rest, readData := s.iv2 }) ∧
    (s.pending = readTurn s.cfg .iv3 :: rest → step s = .next { s with pending := rest, readData := s.iv3 }) ∧
    (s.pending = readTurn s.cfg .keyLen :: rest →
      step s = .next { s with pending := rest, readData := lengthWord s.keyBuf.length }) ∧
    (s.pending = readTurn s.cfg .inLen :: rest →
      step s = .next { s with pending := rest, readData := lengthWord s.inBuf.length }) ∧
    (s.pending = readTurn s.cfg .outLen :: rest →
      step s = .next { s with pending := rest, readData := lengthWord s.outBuf.length }) ∧
    (s.pending = readTurn s.cfg .traceLen :: rest →
      step s = .next { s with pending := rest, readData := lengthWord s.traceBuf.length }) ∧
    (s.pending = readTurn s.cfg .cap :: rest → step s = .next { s with pending := rest, readData := capWord s.cfg })) ∧
  (∀ (s : State) (rest : List Turn), s.Inv → s.busy = true →
    ∀ r ∈ [Reg.outLen, .outPop, .traceLen, .tracePop], s.pending = readTurn s.cfg r :: rest →
      step s = .next { s with pending := rest, readData := 0 })

/-- R65: the fields of STATUS, and the values a host can read in a state with the invariants, OVF apart. -/
def Obligations.StatusLayout : Prop :=
  (∀ s : State,
    (statusWord s).getLsbD 0 = s.busy ∧ (statusWord s).getLsbD 1 = s.done ∧ (statusWord s).getLsbD 2 = s.ovf ∧
    (statusWord s).getLsbD 3 = false ∧ (statusWord s).extractLsb' 4 3 = errCode s.err ∧
    (statusWord s).extractLsb' 7 25 = 0 ∧ (s.busy = true ↔ s.phase = .running)) ∧
  (∀ s : State, s.Inv → statusWord s &&& 0xFFFFFFFB#32 ∈
    [0x00#32, 0x01#32, 0x02#32, 0x12#32, 0x22#32, 0x32#32, 0x42#32, 0x52#32, 0x62#32, 0x72#32])

/-- R67, R68: with the invariants, the length registers read the lengths themselves and CAP reads IN_DEPTH and
HAS_CBC. -/
def Obligations.LengthAndCapRegistersExact : Prop :=
  ∀ s : State, s.Inv →
    (readValue .keyLen s).toNat = s.keyBuf.length ∧ (readValue .inLen s).toNat = s.inBuf.length ∧
    (readValue .outLen s).toNat = s.outBuf.length ∧ (readValue .traceLen s).toNat = s.traceBuf.length ∧
    ((readValue .cap s).extractLsb' 0 16).toNat = s.cfg.inDepth ∧ (readValue .cap s).getLsbD 16 = s.cfg.hasCbc ∧
    (readValue .cap s).extractLsb' 17 15 = 0

/-! ### The shift cipher engine -/

/-- R81, R82: NormShift is the floor remainder in [0, 25] of the signed operand, and EffShift for decryption gives the
same index as subtracting, modulo 26. -/
def Obligations.ShiftAmounts : Prop :=
  (∀ s : Word, normShift s < 26 ∧ ∃ q : Int, s.toInt = 26 * q + (normShift s : Int)) ∧
  (∀ s : Word, effShift s .encrypt = normShift s) ∧
  (∀ s : Word, effShift s .decrypt = if normShift s = 0 then 0 else 26 - normShift s) ∧
  (∀ (s : Word) (i : Nat), i ≤ 25 →
    (((i + effShift s .decrypt) % 26 : Nat) : Int) = ((i : Int) - s.toInt) % 26)

/-- R87: (a) round trip in both orders, (b) identity, (c) case, (d) pass-through, (e) period, (f) bijection. -/
def Obligations.ShiftCipherLaws : Prop :=
  (∀ (s : Word) (x : List Byte),
    shiftTransform (shiftTransform x s .encrypt) s .decrypt = x ∧
    shiftTransform (shiftTransform x s .decrypt) s .encrypt = x) ∧
  (∀ (s : Word) (x : List Byte) (dir : Dir), normShift s = 0 → shiftTransform x s dir = x) ∧
  (∀ (ke : Nat) (c : Byte), ke ≤ 25 → isUpper (rot ke c) = isUpper c ∧ isLower (rot ke c) = isLower c) ∧
  (∀ (ke : Nat) (c : Byte), isAlpha c = false → rot ke c = c) ∧
  (∀ (s : Word) (x : List Byte) (dir : Dir), s.toInt + 26 < 2 ^ 31 →
    shiftTransform x (s + 26) dir = shiftTransform x s dir) ∧
  (∀ ke : Nat, ke ≤ 25 → Function.Bijective (rot ke))

/-- R86: the trace has exactly one entry per letter, with its input symbol, its output symbol and its index, in
increasing index, and no more entries than characters. -/
def Obligations.TraceHasOneEntryPerLetter : Prop :=
  ∀ (text : List Byte) (s : Word) (dir : Dir), text.length ≤ 32736 →
    (∀ e : TraceEntry, e ∈ shiftTrace text s dir ↔
      ∃ (i : Nat) (c : Byte), text[i]? = some c ∧ isAlpha c = true ∧ e.inSym = c ∧
        (shiftTransform text s dir)[i]? = some e.outSym ∧ e.pos.toNat = i) ∧
    (shiftTrace text s dir).Pairwise (fun a b => a.pos.toNat < b.pos.toNat) ∧
    (shiftTrace text s dir).length = text.countP isAlpha ∧
    (shiftTrace text s dir).length ≤ text.length

/-! ### The key expander and the AES state machine -/

/-- R102, R103: every entry of SBOX is the affine image of the field inverse of its index; the table is a permutation
with no fixed point, and INVSBOX is its inverse. -/
def Obligations.SboxTables : Prop :=
  (∀ a b : Byte, (a = 0 ∧ b = 0) ∨ gmul a b = 1 →
    sbox a = b ^^^ b.rotateLeft 1 ^^^ b.rotateLeft 2 ^^^ b.rotateLeft 3 ^^^ b.rotateLeft 4 ^^^ 0x63#8) ∧
  (∀ a : Byte, a ≠ 0 → ∃ b, gmul a b = 1) ∧
  Function.Bijective sbox ∧ (∀ a : Byte, sbox a ≠ a) ∧
  (∀ x : Byte, invSbox (sbox x) = x ∧ sbox (invSbox x) = x)

/-- R106, R107: the schedule has 44 words, the first four are the key, and every later word follows the recurrence; a
round key's bytes are those of its four words, most significant first, and round key 0 is the key. Where `w` lacks the
word, outside R107's domain, the 0 is the model's choice (log 14). -/
def Obligations.KeyScheduleAndRoundKeys : Prop :=
  (∀ key : Block,
    roundKey (keyExpand key) 0 = key ∧
    (keyExpand key).length = 44 ∧
    (keyExpand key).take 4 = [key.c0.toWord, key.c1.toWord, key.c2.toWord, key.c3.toWord] ∧
    (∀ i : Nat, 4 ≤ i → i < 44 →
      (keyExpand key)[i]? = some ((keyExpand key).getD (i - 4) 0 ^^^
        (if i % 4 = 0 then
          subWord (rotWord ((keyExpand key).getD (i - 1) 0)) ^^^ (rconTable.getD (i / 4 - 1) 0 ++ 0#24)
        else (keyExpand key).getD (i - 1) 0)))) ∧
  (∀ (w : List Word) (r c j : Nat), c ≤ 3 → j ≤ 3 →
    (roundKey w r).toBytes[4 * c + j]? = some ((w.getD (4 * r + c) 0).extractLsb' (24 - 8 * j) 8))

/-- R118: ShiftRows and InvShiftRows as index permutations of the 16 bytes, each the inverse of the other. -/
def Obligations.ShiftRowsPermutesBytes : Prop :=
  ∀ s : Block,
    (∀ r c : Nat, r ≤ 3 → c ≤ 3 →
      (shiftRows s).toBytes[r + 4 * c]? = s.toBytes[r + 4 * ((c + r) % 4)]? ∧
      (invShiftRows s).toBytes[r + 4 * c]? = s.toBytes[r + 4 * ((c + 4 - r) % 4)]?) ∧
    invShiftRows (shiftRows s) = s ∧ shiftRows (invShiftRows s) = s

/-- R116, R117, R119: AddRoundKey, SubBytes and MixColumns are undone by AddRoundKey, InvSubBytes and
InvMixColumns, in both orders. -/
def Obligations.RoundTransformationsInvert : Prop :=
  ∀ s k : Block,
    addRoundKey (addRoundKey s k) k = s ∧
    invSubBytes (subBytes s) = s ∧ subBytes (invSubBytes s) = s ∧
    invMixColumns (mixColumns s) = s ∧ mixColumns (invMixColumns s) = s

/-- R122: decryption undoes encryption and encryption undoes decryption, for every Block and every schedule. -/
def Obligations.BlockCipherRoundTrip : Prop :=
  ∀ (w : List Word) (b : Block),
    decryptBlock w (encryptBlock w b) = b ∧ encryptBlock w (decryptBlock w b) = b

/-! ### The mode wrapper -/

/-- R136: which codes are digits and what each is worth; HexDecode fails exactly on a character that is no digit or on
an odd number of digits; otherwise each byte is the value of two digits, the high nibble first. -/
def Obligations.HexDecodeMeaning : Prop :=
  (∀ (c : Byte) (v : BitVec 4), hexVal c = some v ↔
    (0x30 ≤ c.toNat ∧ c.toNat ≤ 0x39 ∧ c.toNat = v.toNat + 0x30) ∨
    (0x41 ≤ c.toNat ∧ c.toNat ≤ 0x46 ∧ c.toNat = v.toNat + 0x37) ∨
    (0x61 ≤ c.toNat ∧ c.toNat ≤ 0x66 ∧ c.toNat = v.toNat + 0x57)) ∧
  (∀ cs : List Byte,
    (hexDecode cs = none ↔ (∃ c ∈ cs, hexVal c = none) ∨ cs.length % 2 = 1) ∧
    (∀ bs, hexDecode cs = some bs → 2 * bs.length = cs.length ∧
      ∀ j b, bs[j]? = some b → ∃ hi lo h l, cs[2 * j]? = some hi ∧ cs[2 * j + 1]? = some lo ∧
        hexVal hi = some h ∧ hexVal lo = some l ∧ b.toNat = h.toNat * 16 + l.toNat))

/-- R137: HexEncode doubles the length, decodes back, and gives a valid string back in lower case. -/
def Obligations.HexRoundTrip : Prop :=
  (∀ bs : List Byte, hexDecode (hexEncode bs) = some bs ∧ (hexEncode bs).length = 2 * bs.length) ∧
  (∀ cs bs : List Byte, hexDecode cs = some bs → hexEncode bs = cs.map lowerDigit) ∧
  (∀ cs bs : List Byte, hexDecode cs = some bs → (∀ c ∈ cs, ¬(0x41 ≤ c.toNat ∧ c.toNat ≤ 0x46)) →
    hexEncode bs = cs)

/-- R141, R142: the padded length is the next multiple of 16, the padding is `n` copies of `n`, and Unpad succeeds on
exactly the padded sequences. -/
def Obligations.PaddingRoundTrip : Prop :=
  (∀ bs : List Byte, ∃ n : Nat, 1 ≤ n ∧ n ≤ 16 ∧ pad bs = bs ++ List.replicate n (BitVec.ofNat 8 n) ∧
    (pad bs).length % 16 = 0) ∧
  (∀ bs r : List Byte, 0 < bs.length → bs.length % 16 = 0 → (unpad bs = some r ↔ bs = pad r)) ∧
  (∀ bs : List Byte, unpad (pad bs) = some bs)

/-- R144, R145: each mode's decryption undoes its encryption on whole blocks, for every schedule and every IV. -/
def Obligations.ModeRoundTrips : Prop :=
  ∀ (w : List Word) (iv : Block) (bs : List Byte), bs.length % 16 = 0 →
    ecbDecrypt w (ecbEncrypt w bs) = bs ∧ (ecbEncrypt w bs).length = bs.length ∧
    cbcDecrypt w iv (cbcEncrypt w iv bs) = bs ∧ (cbcEncrypt w iv bs).length = bs.length

/-- R147: (a) the ECB round trip, (b) the CBC round trip, (c) the output lengths, and that every
output fits OUT_DEPTH, (d) ECB does not depend on the IV. -/
def Obligations.AesRunLaws : Prop :=
  (∀ (kc ic kb db : List Byte) (iv : Block), hexDecode kc = some kb → kb.length = 16 →
    hexDecode ic = some db → db.length % 16 = 0 →
    ∃ o, aesRun .encrypt .ecb kc ic iv = .ok o ∧ aesRun .decrypt .ecb kc o iv = .ok (ic.map lowerDigit) ∧
      ((∀ c ∈ ic, ¬(0x41 ≤ c.toNat ∧ c.toNat ≤ 0x46)) → aesRun .decrypt .ecb kc o iv = .ok ic)) ∧
  (∀ (kc ic kb db : List Byte) (iv : Block), hexDecode kc = some kb → kb.length = 16 → hexDecode ic = some db →
    ∃ o, aesRun .encrypt .cbc kc ic iv = .ok o ∧ aesRun .decrypt .cbc kc o iv = .ok (ic.map lowerDigit)) ∧
  (∀ (kc ic o : List Byte) (iv : Block) (dir : Dir), aesRun dir .ecb kc ic iv = .ok o → o.length = ic.length) ∧
  (∀ (kc ic o : List Byte) (iv : Block), aesRun .encrypt .cbc kc ic iv = .ok o →
    o.length = 32 * (ic.length / 32 + 1) ∧ ic.length + 2 ≤ o.length ∧ o.length ≤ ic.length + 32) ∧
  (∀ (kc ic o : List Byte) (iv : Block), aesRun .decrypt .cbc kc ic iv = .ok o →
    ic.length ≤ o.length + 32 ∧ o.length + 2 ≤ ic.length) ∧
  (∀ (kc ic o : List Byte) (iv : Block) (dir : Dir) (mode : Mode) (cfg : Config), aesRun dir mode kc ic iv = .ok o →
    ic.length ≤ cfg.inDepth → o.length ≤ cfg.outDepth) ∧
  (∀ (kc ic : List Byte) (iv iv' : Block) (dir : Dir), aesRun dir .ecb kc ic iv = aesRun dir .ecb kc ic iv')

/-! ### Commands -/

/-- R174: the word 0 is NOP, and NOP changes nothing, in any state. -/
def Obligations.NopChangesNothing : Prop :=
  (∀ h : Bool, decode h 0x00000000#32 = some .nop) ∧ ∀ s : State, exec .nop s = .next s

/-- R175: the word 2 is CLR. CLR while BUSY = 0 empties the buffers and clears DONE, ERR and OVF, so that STATUS reads 0, and changes
nothing else; while BUSY = 1 it changes nothing. -/
def Obligations.ClrStartsNewRequest : Prop :=
  (∀ h : Bool, decode h 0x00000002#32 = some .clr) ∧
  (∀ s : State, s.busy = false →
    ∃ t, exec .clr s = .next t ∧
      t = { s with keyBuf := [], inBuf := [], outBuf := [], outRp := 0, traceBuf := [], traceRp := 0,
                   done := false, err := none, ovf := false } ∧
      statusWord t = 0) ∧
  (∀ s : State, s.busy = true → exec .clr s = .next s)

/-- R170: a legal RUN command is accepted whatever the operands are: its fields are latched, BUSY set, DONE and ERR
cleared, the result state emptied, and nothing else changes (the engine working storage may hold anything, R24). -/
def Obligations.RunAcceptance : Prop :=
  ∀ (s : State) (i : Instr) (cmd : Cmd), i.run? = some cmd → i.wf s.cfg.hasCbc = true → s.busy = false →
    ∃ wk, exec i s = .next { s with curCmd := cmd, phase := .running, done := false, err := none,
                                    outBuf := [], outRp := 0, traceBuf := [], traceRp := 0, work := wk }

/-- R176: an illegal word while BUSY = 0 reports IllegalCommand at once with empty results; no operation starts, the
engine takes no step and the operand state is unchanged. -/
def Obligations.IllegalCommandReportsAtOnce : Prop :=
  ∀ (s : State) (c : Word) (rest : List Turn), s.busy = false → decode s.cfg.hasCbc c = none →
    s.pending = writeTurn s.cfg .ctrl c :: rest →
    ∃ t, step s = .next t ∧
      t = { s with pending := rest, outBuf := [], outRp := 0, traceBuf := [], traceRp := 0,
                   done := true, err := some .illegalCommand } ∧
      t.busy = false ∧ engineTurn t = t

/-- R71, R152, R153: where HAS_CBC is false the two CBC commands, and only they, are illegal: their words do not decode,
and executed as syntax (which the decoder never asks for there; the model's choice, log 11) they have the illegal
command's effect. -/
def Obligations.CbcCommandsNeedHasCbc : Prop :=
  (∀ i : Instr, i.wf false = false ↔ i = .aesCbcEnc ∨ i = .aesCbcDec) ∧
  (∀ i : Instr, i.wf false = false → decode false (encode i) = none) ∧
  (∀ (s : State) (i : Instr), s.busy = false → i.wf s.cfg.hasCbc = false →
    exec i s = .next { s with outBuf := [], outRp := 0, traceBuf := [], traceRp := 0,
                              done := true, err := some .illegalCommand })

/-- R89: SHIFT.ENC, its word, and from acceptance to completion what it commits, in which order its errors win, and
that all else is as before; that `cur_cmd` then keeps the command is the model's choice (log 5). -/
def Obligations.ShiftEncResult : Prop :=
  (∀ h t sinv : Bool, decode h (0x00000001#32 ||| ((BitVec.ofBool t).setWidth 32 <<< 7) |||
    ((BitVec.ofBool sinv).setWidth 32 <<< 8)) = some (.shiftEnc t sinv)) ∧
  ∀ (s : State) (t sinv : Bool), s.busy = false →
    ∃ s1 wk, exec (.shiftEnc t sinv) s = .next s1 ∧ s1.busy = true ∧
      engineTurn s1 =
        if s.ovf then s.finished ⟨.shift, .encrypt, .ecb, t, sinv⟩ wk (some .overflow) [] []
        else if sinv then s.finished ⟨.shift, .encrypt, .ecb, t, sinv⟩ wk (some .invalidShift) [] []
        else s.finished ⟨.shift, .encrypt, .ecb, t, sinv⟩ wk none (shiftTransform s.inBuf s.shift .encrypt)
          (if t then shiftTrace s.inBuf s.shift .encrypt else [])

/-- R90: SHIFT.DEC, its word, from acceptance to completion, and its relation to SHIFT.ENC with the opposite amount; that
`cur_cmd` then keeps the command is the model's choice (log 5). -/
def Obligations.ShiftDecResult : Prop :=
  (∀ h t sinv : Bool, decode h (0x00000021#32 ||| ((BitVec.ofBool t).setWidth 32 <<< 7) |||
    ((BitVec.ofBool sinv).setWidth 32 <<< 8)) = some (.shiftDec t sinv)) ∧
  (∀ (s : State) (t sinv : Bool), s.busy = false →
    ∃ s1 wk, exec (.shiftDec t sinv) s = .next s1 ∧ s1.busy = true ∧
      engineTurn s1 =
        if s.ovf then s.finished ⟨.shift, .decrypt, .ecb, t, sinv⟩ wk (some .overflow) [] []
        else if sinv then s.finished ⟨.shift, .decrypt, .ecb, t, sinv⟩ wk (some .invalidShift) [] []
        else s.finished ⟨.shift, .decrypt, .ecb, t, sinv⟩ wk none (shiftTransform s.inBuf s.shift .decrypt)
          (if t then shiftTrace s.inBuf s.shift .decrypt else [])) ∧
  (∀ (x : List Byte) (s s' : Word), normShift s' = (26 - normShift s) % 26 →
    shiftTransform x s .decrypt = shiftTransform x s' .encrypt)

/-- R150: AES.ECB.ENC, from acceptance to completion; on success the output is as long as the input; `cur_cmd`: log 5. -/
def Obligations.AesEcbEncResult : Prop :=
  ∀ s : State, s.busy = false →
    ∃ s1 wk, exec .aesEcbEnc s = .next s1 ∧ s1.busy = true ∧
      (s.ovf = true → engineTurn s1 = s.finished ⟨.aes, .encrypt, .ecb, false, false⟩ wk (some .overflow) [] []) ∧
      (s.ovf = false → ∀ o, aesRun .encrypt .ecb s.keyBuf s.inBuf s.iv = .ok o →
        engineTurn s1 = s.finished ⟨.aes, .encrypt, .ecb, false, false⟩ wk none o [] ∧ o.length = s.inBuf.length) ∧
      (s.ovf = false → ∀ e, aesRun .encrypt .ecb s.keyBuf s.inBuf s.iv = .error e →
        engineTurn s1 = s.finished ⟨.aes, .encrypt, .ecb, false, false⟩ wk (some e) [] [])

/-- R151: AES.ECB.DEC, from acceptance to completion; on success the output is as long as the input; `cur_cmd`: log 5. -/
def Obligations.AesEcbDecResult : Prop :=
  ∀ s : State, s.busy = false →
    ∃ s1 wk, exec .aesEcbDec s = .next s1 ∧ s1.busy = true ∧
      (s.ovf = true → engineTurn s1 = s.finished ⟨.aes, .decrypt, .ecb, false, false⟩ wk (some .overflow) [] []) ∧
      (s.ovf = false → ∀ o, aesRun .decrypt .ecb s.keyBuf s.inBuf s.iv = .ok o →
        engineTurn s1 = s.finished ⟨.aes, .decrypt, .ecb, false, false⟩ wk none o [] ∧ o.length = s.inBuf.length) ∧
      (s.ovf = false → ∀ e, aesRun .decrypt .ecb s.keyBuf s.inBuf s.iv = .error e →
        engineTurn s1 = s.finished ⟨.aes, .decrypt, .ecb, false, false⟩ wk (some e) [] [])

/-- R152: AES.CBC.ENC where HAS_CBC is true, from acceptance to completion; on success the output length is R152's; `cur_cmd`: log 5. -/
def Obligations.AesCbcEncResult : Prop :=
  ∀ s : State, s.busy = false → s.cfg.hasCbc = true →
    ∃ s1 wk, exec .aesCbcEnc s = .next s1 ∧ s1.busy = true ∧
      (s.ovf = true → engineTurn s1 = s.finished ⟨.aes, .encrypt, .cbc, false, false⟩ wk (some .overflow) [] []) ∧
      (s.ovf = false → ∀ o, aesRun .encrypt .cbc s.keyBuf s.inBuf s.iv = .ok o →
        engineTurn s1 = s.finished ⟨.aes, .encrypt, .cbc, false, false⟩ wk none o [] ∧
        o.length = 32 * (s.inBuf.length / 32 + 1)) ∧
      (s.ovf = false → ∀ e, aesRun .encrypt .cbc s.keyBuf s.inBuf s.iv = .error e →
        engineTurn s1 = s.finished ⟨.aes, .encrypt, .cbc, false, false⟩ wk (some e) [] [])

/-- R153: AES.CBC.DEC where HAS_CBC is true, from acceptance to completion; on success the output length lies in R153's
range; `cur_cmd`: log 5. -/
def Obligations.AesCbcDecResult : Prop :=
  ∀ s : State, s.busy = false → s.cfg.hasCbc = true →
    ∃ s1 wk, exec .aesCbcDec s = .next s1 ∧ s1.busy = true ∧
      (s.ovf = true → engineTurn s1 = s.finished ⟨.aes, .decrypt, .cbc, false, false⟩ wk (some .overflow) [] []) ∧
      (s.ovf = false → ∀ o, aesRun .decrypt .cbc s.keyBuf s.inBuf s.iv = .ok o →
        engineTurn s1 = s.finished ⟨.aes, .decrypt, .cbc, false, false⟩ wk none o [] ∧
        s.inBuf.length ≤ o.length + 32 ∧ o.length + 2 ≤ s.inBuf.length) ∧
      (s.ovf = false → ∀ e, aesRun .decrypt .cbc s.keyBuf s.inBuf s.iv = .error e →
        engineTurn s1 = s.finished ⟨.aes, .decrypt, .cbc, false, false⟩ wk (some e) [] [])

/-! ### Operations -/

/-- R171, R172: the completion step, taken in the engine's turn while BUSY = 1, writes the whole result of the latched
command on the operand state at once and nothing of the operand state; while BUSY = 0 the engine's turn changes
nothing. That `cur_cmd` and the engine working storage stay is the model's choice (logs 5 and 6). -/
def Obligations.CompletionStep : Prop :=
  (∀ (s : State) (rest : List Turn), s.busy = true → s.pending = .engine :: rest →
    step s = .next (State.finished { s with pending := rest } s.curCmd s.work
      (if s.ovf then some .overflow
        else match s.curCmd.alg with
          | .shift => if s.curCmd.sinv then some .invalidShift else none
          | .aes => match aesRun s.curCmd.dir s.curCmd.mode s.keyBuf s.inBuf s.iv with
            | .ok _ => none
            | .error e => some e)
      (if s.ovf then []
        else match s.curCmd.alg with
          | .shift => if s.curCmd.sinv then [] else shiftTransform s.inBuf s.shift s.curCmd.dir
          | .aes => match aesRun s.curCmd.dir s.curCmd.mode s.keyBuf s.inBuf s.iv with
            | .ok o => o
            | .error _ => [])
      (if s.ovf = false ∧ s.curCmd.alg = .shift ∧ s.curCmd.sinv = false ∧ s.curCmd.t = true then
        shiftTrace s.inBuf s.shift s.curCmd.dir else []))) ∧
  (∀ (s : State) (rest : List Turn), s.busy = false → s.pending = .engine :: rest →
    step s = .next { s with pending := rest })

/-- R187: one error is reported, the first that applies in the order of the rule. -/
def Obligations.ErrorPriority : Prop :=
  ∀ s : State, (complete s).err =
    if s.ovf then some .overflow
    else match s.curCmd.alg with
      | .shift => if s.curCmd.sinv then some .invalidShift else none
      | .aes =>
        match hexDecode s.keyBuf with
        | none => some .encoding
        | some kb =>
          if kb.length ≠ 16 then some .keyLength
          else match hexDecode s.inBuf with
            | none => some .encoding
            | some db =>
              if (s.curCmd.mode = .ecb ∨ s.curCmd.dir = .decrypt) ∧ db.length % 16 ≠ 0 then some .blockAlignment
              else if s.curCmd.mode = .cbc ∧ s.curCmd.dir = .decrypt ∧
                  (db.length = 0 ∨ unpad (cbcDecrypt (keyExpand (Block.ofBytes kb)) s.iv db) = none) then
                some .padding
              else none

/-- R188: which command can end with which code: no command ends with another, and each listed code is reached from
some state that meets the invariants; NOP keeps ERR, CLR zeroes it, and code 7 comes only from an illegal word. -/
def Obligations.ErrorCodesPerCommand : Prop :=
  (∀ e : Option Err,
    ((∃ (s : State) (t v : Bool), s.endsWith (.shiftEnc t v) e) ↔
      e ∈ [none, some .invalidShift, some .overflow]) ∧
    ((∃ (s : State) (t v : Bool), s.endsWith (.shiftDec t v) e) ↔
      e ∈ [none, some .invalidShift, some .overflow]) ∧
    ((∃ s : State, s.endsWith .aesEcbEnc e) ↔
      e ∈ [none, some .keyLength, some .blockAlignment, some .encoding, some .overflow]) ∧
    ((∃ s : State, s.endsWith .aesEcbDec e) ↔
      e ∈ [none, some .keyLength, some .blockAlignment, some .encoding, some .overflow]) ∧
    ((∃ s : State, s.endsWith .aesCbcEnc e) ↔
      e ∈ [none, some .keyLength, some .encoding, some .overflow]) ∧
    ((∃ s : State, s.endsWith .aesCbcDec e) ↔
      e ∈ [none, some .keyLength, some .blockAlignment, some .encoding, some .overflow, some .padding])) ∧
  (∀ (s : State) (i : Instr) (e : Option Err), s.endsWith i e →
    ∃ s' : State, s'.Inv ∧ s'.endsWith i e) ∧
  (∀ s : State, s.busy = false →
    (∃ t, exec .nop s = .next t ∧ t.err = s.err) ∧ (∃ t, exec .clr s = .next t ∧ t.err = none)) ∧
  (∀ s t : State, step s = .next t → t.err = some .illegalCommand → s.err = some .illegalCommand ∨ s.illegal)

/-- R173, R178: every accepted operation completes: while an operation runs and no reset comes, there is a first later
state with BUSY = 0, at most one step after the last turn listed, and that state has DONE = 1. -/
def Obligations.EveryOperationCompletes : Prop :=
  ∀ s : State, s.busy = true → (∀ t ∈ s.pending, t.ok s.cfg = true ∧ t ≠ .reset) →
    ∃ (k : Nat) (t : State), 1 ≤ k ∧ k ≤ s.pending.length + 1 ∧ runSteps k s = .next t ∧ t.busy = false ∧
      t.done = true ∧ ∀ j, j < k → ∃ u, runSteps j s = .next u ∧ u.busy = true

/-- R45, R56: no host access made while an operation runs, and no internal micro-step, can change its result or the
operand state: after any of them the completion step leaves what it would have left at once, but for the value the host
last read and the engine working storage. -/
def Obligations.RunningOperationIsIsolated : Prop :=
  ∀ (s : State) (accesses rest : List Turn), s.Inv → s.busy = true →
    (∀ t ∈ accesses, t.reaches s.cfg = true ∨ t = .micro) → s.pending = accesses ++ .engine :: rest →
    ∃ (d : Word) (wk : Work), runSteps (accesses.length + 1) s =
      .next { complete s with pending := rest, readData := d, work := wk }

/-- R197: a host access that arrives as an operation completes is before the completion step or after it, and both
orders are executions: the STATUS read sees BUSY, or sees DONE. -/
def Obligations.BothOrdersOfARaceAdmitted : Prop :=
  ∀ (s : State) (rest : List Turn), s.busy = true →
    (s.pending = readTurn s.cfg .status :: .engine :: rest →
      ∃ t, runSteps 2 s = .next t ∧ t.pending = rest ∧ t.readData.getLsbD 0 = true) ∧
    (s.pending = .engine :: readTurn s.cfg .status :: rest →
      ∃ t, runSteps 2 s = .next t ∧ t.pending = rest ∧ t.readData.getLsbD 0 = false ∧
        t.readData.getLsbD 1 = true)

/-- R24, R56: an internal micro-step changes nothing but the engine working storage, so that no register reads
differently. -/
def Obligations.MicroStepIsUnobservable : Prop :=
  ∀ (s : State) (rest : List Turn), s.pending = .micro :: rest →
    ∃ wk, step s = .next { s with pending := rest, work := wk } ∧
      ∀ r : Reg, readValue r { s with pending := rest, work := wk } = readValue r s

/-- R124: the reference sequence, started at S_VALIDATE on any leftover working storage, stands at S_COMMIT after
exactly the number of steps of R216 and not before, with the result that `Exec` gives. -/
def Obligations.ReferenceSequenceRefinesExec : Prop :=
  ∀ (cmd : Cmd) (ops : Operands) (wk : Work), wk.seq = .validate →
    (microSteps cmd ops (referenceSteps cmd ops) wk).seq = .commit ∧
    workResult cmd (microSteps cmd ops (referenceSteps cmd ops) wk) = engineResult cmd ops ∧
    ∀ n, n < referenceSteps cmd ops → (microSteps cmd ops n wk).seq ≠ .commit

/-- R70: an operand a command does not read has no influence: two states that agree on what the command reads complete
with the same error, output and trace. -/
def Obligations.UnreadOperandsHaveNoInfluence : Prop :=
  ∀ s s' : State, s.curCmd = s'.curCmd → s.ovf = s'.ovf → s.inBuf = s'.inBuf →
    (s.curCmd.alg = .shift → s.shift = s'.shift) →
    (s.curCmd.alg = .aes → s.keyBuf = s'.keyBuf) →
    (s.curCmd.alg = .aes → s.curCmd.mode = .cbc → s.iv = s'.iv) →
    (complete s).err = (complete s').err ∧ (complete s).outBuf = (complete s').outBuf ∧
      (complete s).traceBuf = (complete s').traceBuf

/-- R190, R211: an operation consumes no operand and an error does not lock the block: the same command issued again on
what the first left is accepted and ends with the same error, output and trace. -/
def Obligations.RepeatedCommandGivesSameResult : Prop :=
  ∀ (s : State) (i : Instr) (cmd : Cmd), i.run? = some cmd → i.wf s.cfg.hasCbc = true → s.busy = false →
    ∃ s1 s2, exec i s = .next s1 ∧ exec i (engineTurn s1) = .next s2 ∧ s2.busy = true ∧
      (engineTurn s2).err = (engineTurn s1).err ∧ (engineTurn s2).outBuf = (engineTurn s1).outBuf ∧
      (engineTurn s2).traceBuf = (engineTurn s1).traceBuf

/-! ### Whole-machine rules -/

/-- R10, R19, R20: the only events that write the operand state: a write to the register or the push itself while
BUSY = 0, CLR for the two buffers, and reset. -/
def Obligations.OnlyWritersOfOperandState : Prop :=
  ∀ s t : State, step s = .next t →
    (t.shift = s.shift ∨ s.resets ∨ ∃ d, s.writes .shift d ∧ t.shift = d) ∧
    (t.iv0 = s.iv0 ∨ s.resets ∨ ∃ d, s.writes .iv0 d ∧ t.iv0 = d) ∧
    (t.iv1 = s.iv1 ∨ s.resets ∨ ∃ d, s.writes .iv1 d ∧ t.iv1 = d) ∧
    (t.iv2 = s.iv2 ∨ s.resets ∨ ∃ d, s.writes .iv2 d ∧ t.iv2 = d) ∧
    (t.iv3 = s.iv3 ∨ s.resets ∨ ∃ d, s.writes .iv3 d ∧ t.iv3 = d) ∧
    (t.keyBuf = s.keyBuf ∨ s.resets ∨ s.clears ∨
      ∃ d, s.writes .keyPush d ∧ t.keyBuf = s.keyBuf ++ [d.extractLsb' 0 8]) ∧
    (t.inBuf = s.inBuf ∨ s.resets ∨ s.clears ∨
      ∃ d, s.writes .inPush d ∧ t.inBuf = s.inBuf ++ [d.extractLsb' 0 8])

/-- R21, R22: the result buffers are written only by the completion step, the trace only by that of a shift command with
T = 1; every other change empties them, at the acceptance of RUN, an illegal command, CLR or reset. -/
def Obligations.OnlyWritersOfResultBuffers : Prop :=
  ∀ s t : State, step s = .next t →
    ((t.outBuf = s.outBuf ∧ t.traceBuf = s.traceBuf) ∨
      (t.outBuf = [] ∧ t.traceBuf = [] ∧ (s.runs ∨ s.illegal ∨ s.clears ∨ s.resets)) ∨ s.completes) ∧
    (t.traceBuf = s.traceBuf ∨ t.traceBuf = [] ∨
      (s.completes ∧ s.curCmd.alg = .shift ∧ s.curCmd.t = true))

/-- R17: the only events that set and clear each flag. -/
def Obligations.FlagsChangeOnlyByTheirEvents : Prop :=
  ∀ s t : State, step s = .next t →
    (s.busy = false → t.busy = true → s.runs) ∧
    (s.busy = true → t.busy = false → s.completes ∨ s.resets) ∧
    (s.done = false → t.done = true → s.completes ∨ s.illegal) ∧
    (s.done = true → t.done = false → s.runs ∨ s.clears ∨ s.resets) ∧
    (s.ovf = false → t.ovf = true →
      (∃ d, s.writes .keyPush d ∧ 64 ≤ s.keyBuf.length) ∨ (∃ d, s.writes .inPush d ∧ s.cfg.inDepth ≤ s.inBuf.length)) ∧
    (s.ovf = true → t.ovf = false → s.clears ∨ s.resets) ∧
    (t.err ≠ s.err → s.completes ∨ s.illegal ∨ s.runs ∨ s.clears ∨ s.resets)
end

