-- ==== Sys2Proof/Laws/State.lean ====
section
/-! SUPPORT. One lemma per field per update of the state, all true by rfl, so that no proof unfolds a record update. -/

namespace Sys2Proof.Machine.State

variable (s : State)

/-! ### `setStatus` -/

@[simp] theorem setStatus_cfg (p : Phase) (d : Bool) (e : Option Err) : (s.setStatus p d e).cfg = s.cfg := rfl
@[simp] theorem setStatus_phase (p : Phase) (d : Bool) (e : Option Err) : (s.setStatus p d e).phase = p := rfl
@[simp] theorem setStatus_done (p : Phase) (d : Bool) (e : Option Err) : (s.setStatus p d e).done = d := rfl
@[simp] theorem setStatus_ovf (p : Phase) (d : Bool) (e : Option Err) : (s.setStatus p d e).ovf = s.ovf := rfl
@[simp] theorem setStatus_err (p : Phase) (d : Bool) (e : Option Err) : (s.setStatus p d e).err = e := rfl
@[simp] theorem setStatus_shift (p : Phase) (d : Bool) (e : Option Err) : (s.setStatus p d e).shift = s.shift := rfl
@[simp] theorem setStatus_iv0 (p : Phase) (d : Bool) (e : Option Err) : (s.setStatus p d e).iv0 = s.iv0 := rfl
@[simp] theorem setStatus_iv1 (p : Phase) (d : Bool) (e : Option Err) : (s.setStatus p d e).iv1 = s.iv1 := rfl
@[simp] theorem setStatus_iv2 (p : Phase) (d : Bool) (e : Option Err) : (s.setStatus p d e).iv2 = s.iv2 := rfl
@[simp] theorem setStatus_iv3 (p : Phase) (d : Bool) (e : Option Err) : (s.setStatus p d e).iv3 = s.iv3 := rfl
@[simp] theorem setStatus_keyBuf (p : Phase) (d : Bool) (e : Option Err) : (s.setStatus p d e).keyBuf = s.keyBuf := rfl
@[simp] theorem setStatus_inBuf (p : Phase) (d : Bool) (e : Option Err) : (s.setStatus p d e).inBuf = s.inBuf := rfl
@[simp] theorem setStatus_outBuf (p : Phase) (d : Bool) (e : Option Err) : (s.setStatus p d e).outBuf = s.outBuf := rfl
@[simp] theorem setStatus_outRp (p : Phase) (d : Bool) (e : Option Err) : (s.setStatus p d e).outRp = s.outRp := rfl
@[simp] theorem setStatus_traceBuf (p : Phase) (d : Bool) (e : Option Err) : (s.setStatus p d e).traceBuf = s.traceBuf := rfl
@[simp] theorem setStatus_traceRp (p : Phase) (d : Bool) (e : Option Err) : (s.setStatus p d e).traceRp = s.traceRp := rfl
@[simp] theorem setStatus_curCmd (p : Phase) (d : Bool) (e : Option Err) : (s.setStatus p d e).curCmd = s.curCmd := rfl
@[simp] theorem setStatus_work (p : Phase) (d : Bool) (e : Option Err) : (s.setStatus p d e).work = s.work := rfl
@[simp] theorem setStatus_pending (p : Phase) (d : Bool) (e : Option Err) : (s.setStatus p d e).pending = s.pending := rfl
@[simp] theorem setStatus_readData (p : Phase) (d : Bool) (e : Option Err) : (s.setStatus p d e).readData = s.readData := rfl

/-! ### `setOvf` -/

@[simp] theorem setOvf_cfg (b : Bool) : (s.setOvf b).cfg = s.cfg := rfl
@[simp] theorem setOvf_phase (b : Bool) : (s.setOvf b).phase = s.phase := rfl
@[simp] theorem setOvf_done (b : Bool) : (s.setOvf b).done = s.done := rfl
@[simp] theorem setOvf_ovf (b : Bool) : (s.setOvf b).ovf = b := rfl
@[simp] theorem setOvf_err (b : Bool) : (s.setOvf b).err = s.err := rfl
@[simp] theorem setOvf_shift (b : Bool) : (s.setOvf b).shift = s.shift := rfl
@[simp] theorem setOvf_iv0 (b : Bool) : (s.setOvf b).iv0 = s.iv0 := rfl
@[simp] theorem setOvf_iv1 (b : Bool) : (s.setOvf b).iv1 = s.iv1 := rfl
@[simp] theorem setOvf_iv2 (b : Bool) : (s.setOvf b).iv2 = s.iv2 := rfl
@[simp] theorem setOvf_iv3 (b : Bool) : (s.setOvf b).iv3 = s.iv3 := rfl
@[simp] theorem setOvf_keyBuf (b : Bool) : (s.setOvf b).keyBuf = s.keyBuf := rfl
@[simp] theorem setOvf_inBuf (b : Bool) : (s.setOvf b).inBuf = s.inBuf := rfl
@[simp] theorem setOvf_outBuf (b : Bool) : (s.setOvf b).outBuf = s.outBuf := rfl
@[simp] theorem setOvf_outRp (b : Bool) : (s.setOvf b).outRp = s.outRp := rfl
@[simp] theorem setOvf_traceBuf (b : Bool) : (s.setOvf b).traceBuf = s.traceBuf := rfl
@[simp] theorem setOvf_traceRp (b : Bool) : (s.setOvf b).traceRp = s.traceRp := rfl
@[simp] theorem setOvf_curCmd (b : Bool) : (s.setOvf b).curCmd = s.curCmd := rfl
@[simp] theorem setOvf_work (b : Bool) : (s.setOvf b).work = s.work := rfl
@[simp] theorem setOvf_pending (b : Bool) : (s.setOvf b).pending = s.pending := rfl
@[simp] theorem setOvf_readData (b : Bool) : (s.setOvf b).readData = s.readData := rfl
@[simp] theorem setOvf_busy (b : Bool) : (s.setOvf b).busy = s.busy := rfl

/-! ### `setShift` -/

@[simp] theorem setShift_cfg (d : Word) : (s.setShift d).cfg = s.cfg := rfl
@[simp] theorem setShift_phase (d : Word) : (s.setShift d).phase = s.phase := rfl
@[simp] theorem setShift_done (d : Word) : (s.setShift d).done = s.done := rfl
@[simp] theorem setShift_ovf (d : Word) : (s.setShift d).ovf = s.ovf := rfl
@[simp] theorem setShift_err (d : Word) : (s.setShift d).err = s.err := rfl
@[simp] theorem setShift_shift (d : Word) : (s.setShift d).shift = d := rfl
@[simp] theorem setShift_iv0 (d : Word) : (s.setShift d).iv0 = s.iv0 := rfl
@[simp] theorem setShift_iv1 (d : Word) : (s.setShift d).iv1 = s.iv1 := rfl
@[simp] theorem setShift_iv2 (d : Word) : (s.setShift d).iv2 = s.iv2 := rfl
@[simp] theorem setShift_iv3 (d : Word) : (s.setShift d).iv3 = s.iv3 := rfl
@[simp] theorem setShift_keyBuf (d : Word) : (s.setShift d).keyBuf = s.keyBuf := rfl
@[simp] theorem setShift_inBuf (d : Word) : (s.setShift d).inBuf = s.inBuf := rfl
@[simp] theorem setShift_outBuf (d : Word) : (s.setShift d).outBuf = s.outBuf := rfl
@[simp] theorem setShift_outRp (d : Word) : (s.setShift d).outRp = s.outRp := rfl
@[simp] theorem setShift_traceBuf (d : Word) : (s.setShift d).traceBuf = s.traceBuf := rfl
@[simp] theorem setShift_traceRp (d : Word) : (s.setShift d).traceRp = s.traceRp := rfl
@[simp] theorem setShift_curCmd (d : Word) : (s.setShift d).curCmd = s.curCmd := rfl
@[simp] theorem setShift_work (d : Word) : (s.setShift d).work = s.work := rfl
@[simp] theorem setShift_pending (d : Word) : (s.setShift d).pending = s.pending := rfl
@[simp] theorem setShift_readData (d : Word) : (s.setShift d).readData = s.readData := rfl
@[simp] theorem setShift_busy (d : Word) : (s.setShift d).busy = s.busy := rfl

/-! ### `setIv0` -/

@[simp] theorem setIv0_cfg (d : Word) : (s.setIv0 d).cfg = s.cfg := rfl
@[simp] theorem setIv0_phase (d : Word) : (s.setIv0 d).phase = s.phase := rfl
@[simp] theorem setIv0_done (d : Word) : (s.setIv0 d).done = s.done := rfl
@[simp] theorem setIv0_ovf (d : Word) : (s.setIv0 d).ovf = s.ovf := rfl
@[simp] theorem setIv0_err (d : Word) : (s.setIv0 d).err = s.err := rfl
@[simp] theorem setIv0_shift (d : Word) : (s.setIv0 d).shift = s.shift := rfl
@[simp] theorem setIv0_iv0 (d : Word) : (s.setIv0 d).iv0 = d := rfl
@[simp] theorem setIv0_iv1 (d : Word) : (s.setIv0 d).iv1 = s.iv1 := rfl
@[simp] theorem setIv0_iv2 (d : Word) : (s.setIv0 d).iv2 = s.iv2 := rfl
@[simp] theorem setIv0_iv3 (d : Word) : (s.setIv0 d).iv3 = s.iv3 := rfl
@[simp] theorem setIv0_keyBuf (d : Word) : (s.setIv0 d).keyBuf = s.keyBuf := rfl
@[simp] theorem setIv0_inBuf (d : Word) : (s.setIv0 d).inBuf = s.inBuf := rfl
@[simp] theorem setIv0_outBuf (d : Word) : (s.setIv0 d).outBuf = s.outBuf := rfl
@[simp] theorem setIv0_outRp (d : Word) : (s.setIv0 d).outRp = s.outRp := rfl
@[simp] theorem setIv0_traceBuf (d : Word) : (s.setIv0 d).traceBuf = s.traceBuf := rfl
@[simp] theorem setIv0_traceRp (d : Word) : (s.setIv0 d).traceRp = s.traceRp := rfl
@[simp] theorem setIv0_curCmd (d : Word) : (s.setIv0 d).curCmd = s.curCmd := rfl
@[simp] theorem setIv0_work (d : Word) : (s.setIv0 d).work = s.work := rfl
@[simp] theorem setIv0_pending (d : Word) : (s.setIv0 d).pending = s.pending := rfl
@[simp] theorem setIv0_readData (d : Word) : (s.setIv0 d).readData = s.readData := rfl
@[simp] theorem setIv0_busy (d : Word) : (s.setIv0 d).busy = s.busy := rfl

/-! ### `setIv1` -/

@[simp] theorem setIv1_cfg (d : Word) : (s.setIv1 d).cfg = s.cfg := rfl
@[simp] theorem setIv1_phase (d : Word) : (s.setIv1 d).phase = s.phase := rfl
@[simp] theorem setIv1_done (d : Word) : (s.setIv1 d).done = s.done := rfl
@[simp] theorem setIv1_ovf (d : Word) : (s.setIv1 d).ovf = s.ovf := rfl
@[simp] theorem setIv1_err (d : Word) : (s.setIv1 d).err = s.err := rfl
@[simp] theorem setIv1_shift (d : Word) : (s.setIv1 d).shift = s.shift := rfl
@[simp] theorem setIv1_iv0 (d : Word) : (s.setIv1 d).iv0 = s.iv0 := rfl
@[simp] theorem setIv1_iv1 (d : Word) : (s.setIv1 d).iv1 = d := rfl
@[simp] theorem setIv1_iv2 (d : Word) : (s.setIv1 d).iv2 = s.iv2 := rfl
@[simp] theorem setIv1_iv3 (d : Word) : (s.setIv1 d).iv3 = s.iv3 := rfl
@[simp] theorem setIv1_keyBuf (d : Word) : (s.setIv1 d).keyBuf = s.keyBuf := rfl
@[simp] theorem setIv1_inBuf (d : Word) : (s.setIv1 d).inBuf = s.inBuf := rfl
@[simp] theorem setIv1_outBuf (d : Word) : (s.setIv1 d).outBuf = s.outBuf := rfl
@[simp] theorem setIv1_outRp (d : Word) : (s.setIv1 d).outRp = s.outRp := rfl
@[simp] theorem setIv1_traceBuf (d : Word) : (s.setIv1 d).traceBuf = s.traceBuf := rfl
@[simp] theorem setIv1_traceRp (d : Word) : (s.setIv1 d).traceRp = s.traceRp := rfl
@[simp] theorem setIv1_curCmd (d : Word) : (s.setIv1 d).curCmd = s.curCmd := rfl
@[simp] theorem setIv1_work (d : Word) : (s.setIv1 d).work = s.work := rfl
@[simp] theorem setIv1_pending (d : Word) : (s.setIv1 d).pending = s.pending := rfl
@[simp] theorem setIv1_readData (d : Word) : (s.setIv1 d).readData = s.readData := rfl
@[simp] theorem setIv1_busy (d : Word) : (s.setIv1 d).busy = s.busy := rfl

/-! ### `setIv2` -/

@[simp] theorem setIv2_cfg (d : Word) : (s.setIv2 d).cfg = s.cfg := rfl
@[simp] theorem setIv2_phase (d : Word) : (s.setIv2 d).phase = s.phase := rfl
@[simp] theorem setIv2_done (d : Word) : (s.setIv2 d).done = s.done := rfl
@[simp] theorem setIv2_ovf (d : Word) : (s.setIv2 d).ovf = s.ovf := rfl
@[simp] theorem setIv2_err (d : Word) : (s.setIv2 d).err = s.err := rfl
@[simp] theorem setIv2_shift (d : Word) : (s.setIv2 d).shift = s.shift := rfl
@[simp] theorem setIv2_iv0 (d : Word) : (s.setIv2 d).iv0 = s.iv0 := rfl
@[simp] theorem setIv2_iv1 (d : Word) : (s.setIv2 d).iv1 = s.iv1 := rfl
@[simp] theorem setIv2_iv2 (d : Word) : (s.setIv2 d).iv2 = d := rfl
@[simp] theorem setIv2_iv3 (d : Word) : (s.setIv2 d).iv3 = s.iv3 := rfl
@[simp] theorem setIv2_keyBuf (d : Word) : (s.setIv2 d).keyBuf = s.keyBuf := rfl
@[simp] theorem setIv2_inBuf (d : Word) : (s.setIv2 d).inBuf = s.inBuf := rfl
@[simp] theorem setIv2_outBuf (d : Word) : (s.setIv2 d).outBuf = s.outBuf := rfl
@[simp] theorem setIv2_outRp (d : Word) : (s.setIv2 d).outRp = s.outRp := rfl
@[simp] theorem setIv2_traceBuf (d : Word) : (s.setIv2 d).traceBuf = s.traceBuf := rfl
@[simp] theorem setIv2_traceRp (d : Word) : (s.setIv2 d).traceRp = s.traceRp := rfl
@[simp] theorem setIv2_curCmd (d : Word) : (s.setIv2 d).curCmd = s.curCmd := rfl
@[simp] theorem setIv2_work (d : Word) : (s.setIv2 d).work = s.work := rfl
@[simp] theorem setIv2_pending (d : Word) : (s.setIv2 d).pending = s.pending := rfl
@[simp] theorem setIv2_readData (d : Word) : (s.setIv2 d).readData = s.readData := rfl
@[simp] theorem setIv2_busy (d : Word) : (s.setIv2 d).busy = s.busy := rfl

/-! ### `setIv3` -/

@[simp] theorem setIv3_cfg (d : Word) : (s.setIv3 d).cfg = s.cfg := rfl
@[simp] theorem setIv3_phase (d : Word) : (s.setIv3 d).phase = s.phase := rfl
@[simp] theorem setIv3_done (d : Word) : (s.setIv3 d).done = s.done := rfl
@[simp] theorem setIv3_ovf (d : Word) : (s.setIv3 d).ovf = s.ovf := rfl
@[simp] theorem setIv3_err (d : Word) : (s.setIv3 d).err = s.err := rfl
@[simp] theorem setIv3_shift (d : Word) : (s.setIv3 d).shift = s.shift := rfl
@[simp] theorem setIv3_iv0 (d : Word) : (s.setIv3 d).iv0 = s.iv0 := rfl
@[simp] theorem setIv3_iv1 (d : Word) : (s.setIv3 d).iv1 = s.iv1 := rfl
@[simp] theorem setIv3_iv2 (d : Word) : (s.setIv3 d).iv2 = s.iv2 := rfl
@[simp] theorem setIv3_iv3 (d : Word) : (s.setIv3 d).iv3 = d := rfl
@[simp] theorem setIv3_keyBuf (d : Word) : (s.setIv3 d).keyBuf = s.keyBuf := rfl
@[simp] theorem setIv3_inBuf (d : Word) : (s.setIv3 d).inBuf = s.inBuf := rfl
@[simp] theorem setIv3_outBuf (d : Word) : (s.setIv3 d).outBuf = s.outBuf := rfl
@[simp] theorem setIv3_outRp (d : Word) : (s.setIv3 d).outRp = s.outRp := rfl
@[simp] theorem setIv3_traceBuf (d : Word) : (s.setIv3 d).traceBuf = s.traceBuf := rfl
@[simp] theorem setIv3_traceRp (d : Word) : (s.setIv3 d).traceRp = s.traceRp := rfl
@[simp] theorem setIv3_curCmd (d : Word) : (s.setIv3 d).curCmd = s.curCmd := rfl
@[simp] theorem setIv3_work (d : Word) : (s.setIv3 d).work = s.work := rfl
@[simp] theorem setIv3_pending (d : Word) : (s.setIv3 d).pending = s.pending := rfl
@[simp] theorem setIv3_readData (d : Word) : (s.setIv3 d).readData = s.readData := rfl
@[simp] theorem setIv3_busy (d : Word) : (s.setIv3 d).busy = s.busy := rfl

/-! ### `setKeyBuf` -/

@[simp] theorem setKeyBuf_cfg (cs : List Byte) : (s.setKeyBuf cs).cfg = s.cfg := rfl
@[simp] theorem setKeyBuf_phase (cs : List Byte) : (s.setKeyBuf cs).phase = s.phase := rfl
@[simp] theorem setKeyBuf_done (cs : List Byte) : (s.setKeyBuf cs).done = s.done := rfl
@[simp] theorem setKeyBuf_ovf (cs : List Byte) : (s.setKeyBuf cs).ovf = s.ovf := rfl
@[simp] theorem setKeyBuf_err (cs : List Byte) : (s.setKeyBuf cs).err = s.err := rfl
@[simp] theorem setKeyBuf_shift (cs : List Byte) : (s.setKeyBuf cs).shift = s.shift := rfl
@[simp] theorem setKeyBuf_iv0 (cs : List Byte) : (s.setKeyBuf cs).iv0 = s.iv0 := rfl
@[simp] theorem setKeyBuf_iv1 (cs : List Byte) : (s.setKeyBuf cs).iv1 = s.iv1 := rfl
@[simp] theorem setKeyBuf_iv2 (cs : List Byte) : (s.setKeyBuf cs).iv2 = s.iv2 := rfl
@[simp] theorem setKeyBuf_iv3 (cs : List Byte) : (s.setKeyBuf cs).iv3 = s.iv3 := rfl
@[simp] theorem setKeyBuf_keyBuf (cs : List Byte) : (s.setKeyBuf cs).keyBuf = cs := rfl
@[simp] theorem setKeyBuf_inBuf (cs : List Byte) : (s.setKeyBuf cs).inBuf = s.inBuf := rfl
@[simp] theorem setKeyBuf_outBuf (cs : List Byte) : (s.setKeyBuf cs).outBuf = s.outBuf := rfl
@[simp] theorem setKeyBuf_outRp (cs : List Byte) : (s.setKeyBuf cs).outRp = s.outRp := rfl
@[simp] theorem setKeyBuf_traceBuf (cs : List Byte) : (s.setKeyBuf cs).traceBuf = s.traceBuf := rfl
@[simp] theorem setKeyBuf_traceRp (cs : List Byte) : (s.setKeyBuf cs).traceRp = s.traceRp := rfl
@[simp] theorem setKeyBuf_curCmd (cs : List Byte) : (s.setKeyBuf cs).curCmd = s.curCmd := rfl
@[simp] theorem setKeyBuf_work (cs : List Byte) : (s.setKeyBuf cs).work = s.work := rfl
@[simp] theorem setKeyBuf_pending (cs : List Byte) : (s.setKeyBuf cs).pending = s.pending := rfl
@[simp] theorem setKeyBuf_readData (cs : List Byte) : (s.setKeyBuf cs).readData = s.readData := rfl
@[simp] theorem setKeyBuf_busy (cs : List Byte) : (s.setKeyBuf cs).busy = s.busy := rfl

/-! ### `setInBuf` -/

@[simp] theorem setInBuf_cfg (cs : List Byte) : (s.setInBuf cs).cfg = s.cfg := rfl
@[simp] theorem setInBuf_phase (cs : List Byte) : (s.setInBuf cs).phase = s.phase := rfl
@[simp] theorem setInBuf_done (cs : List Byte) : (s.setInBuf cs).done = s.done := rfl
@[simp] theorem setInBuf_ovf (cs : List Byte) : (s.setInBuf cs).ovf = s.ovf := rfl
@[simp] theorem setInBuf_err (cs : List Byte) : (s.setInBuf cs).err = s.err := rfl
@[simp] theorem setInBuf_shift (cs : List Byte) : (s.setInBuf cs).shift = s.shift := rfl
@[simp] theorem setInBuf_iv0 (cs : List Byte) : (s.setInBuf cs).iv0 = s.iv0 := rfl
@[simp] theorem setInBuf_iv1 (cs : List Byte) : (s.setInBuf cs).iv1 = s.iv1 := rfl
@[simp] theorem setInBuf_iv2 (cs : List Byte) : (s.setInBuf cs).iv2 = s.iv2 := rfl
@[simp] theorem setInBuf_iv3 (cs : List Byte) : (s.setInBuf cs).iv3 = s.iv3 := rfl
@[simp] theorem setInBuf_keyBuf (cs : List Byte) : (s.setInBuf cs).keyBuf = s.keyBuf := rfl
@[simp] theorem setInBuf_inBuf (cs : List Byte) : (s.setInBuf cs).inBuf = cs := rfl
@[simp] theorem setInBuf_outBuf (cs : List Byte) : (s.setInBuf cs).outBuf = s.outBuf := rfl
@[simp] theorem setInBuf_outRp (cs : List Byte) : (s.setInBuf cs).outRp = s.outRp := rfl
@[simp] theorem setInBuf_traceBuf (cs : List Byte) : (s.setInBuf cs).traceBuf = s.traceBuf := rfl
@[simp] theorem setInBuf_traceRp (cs : List Byte) : (s.setInBuf cs).traceRp = s.traceRp := rfl
@[simp] theorem setInBuf_curCmd (cs : List Byte) : (s.setInBuf cs).curCmd = s.curCmd := rfl
@[simp] theorem setInBuf_work (cs : List Byte) : (s.setInBuf cs).work = s.work := rfl
@[simp] theorem setInBuf_pending (cs : List Byte) : (s.setInBuf cs).pending = s.pending := rfl
@[simp] theorem setInBuf_readData (cs : List Byte) : (s.setInBuf cs).readData = s.readData := rfl
@[simp] theorem setInBuf_busy (cs : List Byte) : (s.setInBuf cs).busy = s.busy := rfl

/-! ### `setResult` -/

@[simp] theorem setResult_cfg (out : List Byte) (tr : List TraceEntry) : (s.setResult out tr).cfg = s.cfg := rfl
@[simp] theorem setResult_phase (out : List Byte) (tr : List TraceEntry) : (s.setResult out tr).phase = s.phase := rfl
@[simp] theorem setResult_done (out : List Byte) (tr : List TraceEntry) : (s.setResult out tr).done = s.done := rfl
@[simp] theorem setResult_ovf (out : List Byte) (tr : List TraceEntry) : (s.setResult out tr).ovf = s.ovf := rfl
@[simp] theorem setResult_err (out : List Byte) (tr : List TraceEntry) : (s.setResult out tr).err = s.err := rfl
@[simp] theorem setResult_shift (out : List Byte) (tr : List TraceEntry) : (s.setResult out tr).shift = s.shift := rfl
@[simp] theorem setResult_iv0 (out : List Byte) (tr : List TraceEntry) : (s.setResult out tr).iv0 = s.iv0 := rfl
@[simp] theorem setResult_iv1 (out : List Byte) (tr : List TraceEntry) : (s.setResult out tr).iv1 = s.iv1 := rfl
@[simp] theorem setResult_iv2 (out : List Byte) (tr : List TraceEntry) : (s.setResult out tr).iv2 = s.iv2 := rfl
@[simp] theorem setResult_iv3 (out : List Byte) (tr : List TraceEntry) : (s.setResult out tr).iv3 = s.iv3 := rfl
@[simp] theorem setResult_keyBuf (out : List Byte) (tr : List TraceEntry) : (s.setResult out tr).keyBuf = s.keyBuf := rfl
@[simp] theorem setResult_inBuf (out : List Byte) (tr : List TraceEntry) : (s.setResult out tr).inBuf = s.inBuf := rfl
@[simp] theorem setResult_outBuf (out : List Byte) (tr : List TraceEntry) : (s.setResult out tr).outBuf = out := rfl
@[simp] theorem setResult_outRp (out : List Byte) (tr : List TraceEntry) : (s.setResult out tr).outRp = 0 := rfl
@[simp] theorem setResult_traceBuf (out : List Byte) (tr : List TraceEntry) : (s.setResult out tr).traceBuf = tr := rfl
@[simp] theorem setResult_traceRp (out : List Byte) (tr : List TraceEntry) : (s.setResult out tr).traceRp = 0 := rfl
@[simp] theorem setResult_curCmd (out : List Byte) (tr : List TraceEntry) : (s.setResult out tr).curCmd = s.curCmd := rfl
@[simp] theorem setResult_work (out : List Byte) (tr : List TraceEntry) : (s.setResult out tr).work = s.work := rfl
@[simp] theorem setResult_pending (out : List Byte) (tr : List TraceEntry) : (s.setResult out tr).pending = s.pending := rfl
@[simp] theorem setResult_readData (out : List Byte) (tr : List TraceEntry) : (s.setResult out tr).readData = s.readData := rfl
@[simp] theorem setResult_busy (out : List Byte) (tr : List TraceEntry) : (s.setResult out tr).busy = s.busy := rfl

/-! ### `setOutRp` -/

@[simp] theorem setOutRp_cfg (n : Nat) : (s.setOutRp n).cfg = s.cfg := rfl
@[simp] theorem setOutRp_phase (n : Nat) : (s.setOutRp n).phase = s.phase := rfl
@[simp] theorem setOutRp_done (n : Nat) : (s.setOutRp n).done = s.done := rfl
@[simp] theorem setOutRp_ovf (n : Nat) : (s.setOutRp n).ovf = s.ovf := rfl
@[simp] theorem setOutRp_err (n : Nat) : (s.setOutRp n).err = s.err := rfl
@[simp] theorem setOutRp_shift (n : Nat) : (s.setOutRp n).shift = s.shift := rfl
@[simp] theorem setOutRp_iv0 (n : Nat) : (s.setOutRp n).iv0 = s.iv0 := rfl
@[simp] theorem setOutRp_iv1 (n : Nat) : (s.setOutRp n).iv1 = s.iv1 := rfl
@[simp] theorem setOutRp_iv2 (n : Nat) : (s.setOutRp n).iv2 = s.iv2 := rfl
@[simp] theorem setOutRp_iv3 (n : Nat) : (s.setOutRp n).iv3 = s.iv3 := rfl
@[simp] theorem setOutRp_keyBuf (n : Nat) : (s.setOutRp n).keyBuf = s.keyBuf := rfl
@[simp] theorem setOutRp_inBuf (n : Nat) : (s.setOutRp n).inBuf = s.inBuf := rfl
@[simp] theorem setOutRp_outBuf (n : Nat) : (s.setOutRp n).outBuf = s.outBuf := rfl
@[simp] theorem setOutRp_outRp (n : Nat) : (s.setOutRp n).outRp = n := rfl
@[simp] theorem setOutRp_traceBuf (n : Nat) : (s.setOutRp n).traceBuf = s.traceBuf := rfl
@[simp] theorem setOutRp_traceRp (n : Nat) : (s.setOutRp n).traceRp = s.traceRp := rfl
@[simp] theorem setOutRp_curCmd (n : Nat) : (s.setOutRp n).curCmd = s.curCmd := rfl
@[simp] theorem setOutRp_work (n : Nat) : (s.setOutRp n).work = s.work := rfl
@[simp] theorem setOutRp_pending (n : Nat) : (s.setOutRp n).pending = s.pending := rfl
@[simp] theorem setOutRp_readData (n : Nat) : (s.setOutRp n).readData = s.readData := rfl
@[simp] theorem setOutRp_busy (n : Nat) : (s.setOutRp n).busy = s.busy := rfl

/-! ### `setTraceRp` -/

@[simp] theorem setTraceRp_cfg (n : Nat) : (s.setTraceRp n).cfg = s.cfg := rfl
@[simp] theorem setTraceRp_phase (n : Nat) : (s.setTraceRp n).phase = s.phase := rfl
@[simp] theorem setTraceRp_done (n : Nat) : (s.setTraceRp n).done = s.done := rfl
@[simp] theorem setTraceRp_ovf (n : Nat) : (s.setTraceRp n).ovf = s.ovf := rfl
@[simp] theorem setTraceRp_err (n : Nat) : (s.setTraceRp n).err = s.err := rfl
@[simp] theorem setTraceRp_shift (n : Nat) : (s.setTraceRp n).shift = s.shift := rfl
@[simp] theorem setTraceRp_iv0 (n : Nat) : (s.setTraceRp n).iv0 = s.iv0 := rfl
@[simp] theorem setTraceRp_iv1 (n : Nat) : (s.setTraceRp n).iv1 = s.iv1 := rfl
@[simp] theorem setTraceRp_iv2 (n : Nat) : (s.setTraceRp n).iv2 = s.iv2 := rfl
@[simp] theorem setTraceRp_iv3 (n : Nat) : (s.setTraceRp n).iv3 = s.iv3 := rfl
@[simp] theorem setTraceRp_keyBuf (n : Nat) : (s.setTraceRp n).keyBuf = s.keyBuf := rfl
@[simp] theorem setTraceRp_inBuf (n : Nat) : (s.setTraceRp n).inBuf = s.inBuf := rfl
@[simp] theorem setTraceRp_outBuf (n : Nat) : (s.setTraceRp n).outBuf = s.outBuf := rfl
@[simp] theorem setTraceRp_outRp (n : Nat) : (s.setTraceRp n).outRp = s.outRp := rfl
@[simp] theorem setTraceRp_traceBuf (n : Nat) : (s.setTraceRp n).traceBuf = s.traceBuf := rfl
@[simp] theorem setTraceRp_traceRp (n : Nat) : (s.setTraceRp n).traceRp = n := rfl
@[simp] theorem setTraceRp_curCmd (n : Nat) : (s.setTraceRp n).curCmd = s.curCmd := rfl
@[simp] theorem setTraceRp_work (n : Nat) : (s.setTraceRp n).work = s.work := rfl
@[simp] theorem setTraceRp_pending (n : Nat) : (s.setTraceRp n).pending = s.pending := rfl
@[simp] theorem setTraceRp_readData (n : Nat) : (s.setTraceRp n).readData = s.readData := rfl
@[simp] theorem setTraceRp_busy (n : Nat) : (s.setTraceRp n).busy = s.busy := rfl

/-! ### `setCurCmd` -/

@[simp] theorem setCurCmd_cfg (c : Cmd) : (s.setCurCmd c).cfg = s.cfg := rfl
@[simp] theorem setCurCmd_phase (c : Cmd) : (s.setCurCmd c).phase = s.phase := rfl
@[simp] theorem setCurCmd_done (c : Cmd) : (s.setCurCmd c).done = s.done := rfl
@[simp] theorem setCurCmd_ovf (c : Cmd) : (s.setCurCmd c).ovf = s.ovf := rfl
@[simp] theorem setCurCmd_err (c : Cmd) : (s.setCurCmd c).err = s.err := rfl
@[simp] theorem setCurCmd_shift (c : Cmd) : (s.setCurCmd c).shift = s.shift := rfl
@[simp] theorem setCurCmd_iv0 (c : Cmd) : (s.setCurCmd c).iv0 = s.iv0 := rfl
@[simp] theorem setCurCmd_iv1 (c : Cmd) : (s.setCurCmd c).iv1 = s.iv1 := rfl
@[simp] theorem setCurCmd_iv2 (c : Cmd) : (s.setCurCmd c).iv2 = s.iv2 := rfl
@[simp] theorem setCurCmd_iv3 (c : Cmd) : (s.setCurCmd c).iv3 = s.iv3 := rfl
@[simp] theorem setCurCmd_keyBuf (c : Cmd) : (s.setCurCmd c).keyBuf = s.keyBuf := rfl
@[simp] theorem setCurCmd_inBuf (c : Cmd) : (s.setCurCmd c).inBuf = s.inBuf := rfl
@[simp] theorem setCurCmd_outBuf (c : Cmd) : (s.setCurCmd c).outBuf = s.outBuf := rfl
@[simp] theorem setCurCmd_outRp (c : Cmd) : (s.setCurCmd c).outRp = s.outRp := rfl
@[simp] theorem setCurCmd_traceBuf (c : Cmd) : (s.setCurCmd c).traceBuf = s.traceBuf := rfl
@[simp] theorem setCurCmd_traceRp (c : Cmd) : (s.setCurCmd c).traceRp = s.traceRp := rfl
@[simp] theorem setCurCmd_curCmd (c : Cmd) : (s.setCurCmd c).curCmd = c := rfl
@[simp] theorem setCurCmd_work (c : Cmd) : (s.setCurCmd c).work = s.work := rfl
@[simp] theorem setCurCmd_pending (c : Cmd) : (s.setCurCmd c).pending = s.pending := rfl
@[simp] theorem setCurCmd_readData (c : Cmd) : (s.setCurCmd c).readData = s.readData := rfl
@[simp] theorem setCurCmd_busy (c : Cmd) : (s.setCurCmd c).busy = s.busy := rfl

/-! ### `setWork` -/

@[simp] theorem setWork_cfg (wk : Work) : (s.setWork wk).cfg = s.cfg := rfl
@[simp] theorem setWork_phase (wk : Work) : (s.setWork wk).phase = s.phase := rfl
@[simp] theorem setWork_done (wk : Work) : (s.setWork wk).done = s.done := rfl
@[simp] theorem setWork_ovf (wk : Work) : (s.setWork wk).ovf = s.ovf := rfl
@[simp] theorem setWork_err (wk : Work) : (s.setWork wk).err = s.err := rfl
@[simp] theorem setWork_shift (wk : Work) : (s.setWork wk).shift = s.shift := rfl
@[simp] theorem setWork_iv0 (wk : Work) : (s.setWork wk).iv0 = s.iv0 := rfl
@[simp] theorem setWork_iv1 (wk : Work) : (s.setWork wk).iv1 = s.iv1 := rfl
@[simp] theorem setWork_iv2 (wk : Work) : (s.setWork wk).iv2 = s.iv2 := rfl
@[simp] theorem setWork_iv3 (wk : Work) : (s.setWork wk).iv3 = s.iv3 := rfl
@[simp] theorem setWork_keyBuf (wk : Work) : (s.setWork wk).keyBuf = s.keyBuf := rfl
@[simp] theorem setWork_inBuf (wk : Work) : (s.setWork wk).inBuf = s.inBuf := rfl
@[simp] theorem setWork_outBuf (wk : Work) : (s.setWork wk).outBuf = s.outBuf := rfl
@[simp] theorem setWork_outRp (wk : Work) : (s.setWork wk).outRp = s.outRp := rfl
@[simp] theorem setWork_traceBuf (wk : Work) : (s.setWork wk).traceBuf = s.traceBuf := rfl
@[simp] theorem setWork_traceRp (wk : Work) : (s.setWork wk).traceRp = s.traceRp := rfl
@[simp] theorem setWork_curCmd (wk : Work) : (s.setWork wk).curCmd = s.curCmd := rfl
@[simp] theorem setWork_work (wk : Work) : (s.setWork wk).work = wk := rfl
@[simp] theorem setWork_pending (wk : Work) : (s.setWork wk).pending = s.pending := rfl
@[simp] theorem setWork_readData (wk : Work) : (s.setWork wk).readData = s.readData := rfl
@[simp] theorem setWork_busy (wk : Work) : (s.setWork wk).busy = s.busy := rfl

/-! ### `setPending` -/

@[simp] theorem setPending_cfg (ts : List Turn) : (s.setPending ts).cfg = s.cfg := rfl
@[simp] theorem setPending_phase (ts : List Turn) : (s.setPending ts).phase = s.phase := rfl
@[simp] theorem setPending_done (ts : List Turn) : (s.setPending ts).done = s.done := rfl
@[simp] theorem setPending_ovf (ts : List Turn) : (s.setPending ts).ovf = s.ovf := rfl
@[simp] theorem setPending_err (ts : List Turn) : (s.setPending ts).err = s.err := rfl
@[simp] theorem setPending_shift (ts : List Turn) : (s.setPending ts).shift = s.shift := rfl
@[simp] theorem setPending_iv0 (ts : List Turn) : (s.setPending ts).iv0 = s.iv0 := rfl
@[simp] theorem setPending_iv1 (ts : List Turn) : (s.setPending ts).iv1 = s.iv1 := rfl
@[simp] theorem setPending_iv2 (ts : List Turn) : (s.setPending ts).iv2 = s.iv2 := rfl
@[simp] theorem setPending_iv3 (ts : List Turn) : (s.setPending ts).iv3 = s.iv3 := rfl
@[simp] theorem setPending_keyBuf (ts : List Turn) : (s.setPending ts).keyBuf = s.keyBuf := rfl
@[simp] theorem setPending_inBuf (ts : List Turn) : (s.setPending ts).inBuf = s.inBuf := rfl
@[simp] theorem setPending_outBuf (ts : List Turn) : (s.setPending ts).outBuf = s.outBuf := rfl
@[simp] theorem setPending_outRp (ts : List Turn) : (s.setPending ts).outRp = s.outRp := rfl
@[simp] theorem setPending_traceBuf (ts : List Turn) : (s.setPending ts).traceBuf = s.traceBuf := rfl
@[simp] theorem setPending_traceRp (ts : List Turn) : (s.setPending ts).traceRp = s.traceRp := rfl
@[simp] theorem setPending_curCmd (ts : List Turn) : (s.setPending ts).curCmd = s.curCmd := rfl
@[simp] theorem setPending_work (ts : List Turn) : (s.setPending ts).work = s.work := rfl
@[simp] theorem setPending_pending (ts : List Turn) : (s.setPending ts).pending = ts := rfl
@[simp] theorem setPending_readData (ts : List Turn) : (s.setPending ts).readData = s.readData := rfl
@[simp] theorem setPending_busy (ts : List Turn) : (s.setPending ts).busy = s.busy := rfl

/-! ### `setReadData` -/

@[simp] theorem setReadData_cfg (d : Word) : (s.setReadData d).cfg = s.cfg := rfl
@[simp] theorem setReadData_phase (d : Word) : (s.setReadData d).phase = s.phase := rfl
@[simp] theorem setReadData_done (d : Word) : (s.setReadData d).done = s.done := rfl
@[simp] theorem setReadData_ovf (d : Word) : (s.setReadData d).ovf = s.ovf := rfl
@[simp] theorem setReadData_err (d : Word) : (s.setReadData d).err = s.err := rfl
@[simp] theorem setReadData_shift (d : Word) : (s.setReadData d).shift = s.shift := rfl
@[simp] theorem setReadData_iv0 (d : Word) : (s.setReadData d).iv0 = s.iv0 := rfl
@[simp] theorem setReadData_iv1 (d : Word) : (s.setReadData d).iv1 = s.iv1 := rfl
@[simp] theorem setReadData_iv2 (d : Word) : (s.setReadData d).iv2 = s.iv2 := rfl
@[simp] theorem setReadData_iv3 (d : Word) : (s.setReadData d).iv3 = s.iv3 := rfl
@[simp] theorem setReadData_keyBuf (d : Word) : (s.setReadData d).keyBuf = s.keyBuf := rfl
@[simp] theorem setReadData_inBuf (d : Word) : (s.setReadData d).inBuf = s.inBuf := rfl
@[simp] theorem setReadData_outBuf (d : Word) : (s.setReadData d).outBuf = s.outBuf := rfl
@[simp] theorem setReadData_outRp (d : Word) : (s.setReadData d).outRp = s.outRp := rfl
@[simp] theorem setReadData_traceBuf (d : Word) : (s.setReadData d).traceBuf = s.traceBuf := rfl
@[simp] theorem setReadData_traceRp (d : Word) : (s.setReadData d).traceRp = s.traceRp := rfl
@[simp] theorem setReadData_curCmd (d : Word) : (s.setReadData d).curCmd = s.curCmd := rfl
@[simp] theorem setReadData_work (d : Word) : (s.setReadData d).work = s.work := rfl
@[simp] theorem setReadData_pending (d : Word) : (s.setReadData d).pending = s.pending := rfl
@[simp] theorem setReadData_readData (d : Word) : (s.setReadData d).readData = d := rfl
@[simp] theorem setReadData_busy (d : Word) : (s.setReadData d).busy = s.busy := rfl
@[simp] theorem setPending_setPending (ts us : List Turn) : (s.setPending ts).setPending us = s.setPending us := rfl
@[simp] theorem setPending_pending_self : s.setPending s.pending = s := rfl

end Sys2Proof.Machine.State
end

