-- ==== Sys2Proof/Laws/Ops.lean ====
section
/-! SUPPORT. For each shared operation, once, everything it can do. -/

namespace Sys2Proof.Machine

/-! ### Flags -/

theorem busy_iff (s : State) : s.busy = true ↔ s.phase = .running := by
  unfold State.busy
  cases s.phase <;> simp

theorem not_busy_iff (s : State) : s.busy = false ↔ s.phase = .idle := by
  unfold State.busy
  cases s.phase <;> simp

@[simp] theorem busy_setStatus (s : State) (p : Phase) (d : Bool) (e : Option Err) :
    (s.setStatus p d e).busy = match p with
      | .idle => false
      | .running => true := rfl

/-! ### Operations on the result state -/

theorem accept_eq (cmd : Cmd) (s : State) :
    accept cmd s = { s with
      curCmd := cmd, phase := .running, done := false, err := none
      outBuf := [], outRp := 0, traceBuf := [], traceRp := 0
      work := { s.work with seq := .validate } } := rfl

theorem commit_eq (out : List Byte) (trace : List TraceEntry) (s : State) :
    commit out trace s = { s with
      phase := .idle, done := true, err := none
      outBuf := out, outRp := 0, traceBuf := trace, traceRp := 0 } := rfl

theorem deliver_eq (e : Err) (s : State) :
    deliver e s = { s with
      phase := .idle, done := true, err := some e
      outBuf := [], outRp := 0, traceBuf := [], traceRp := 0 } := rfl

theorem illegalCommand_eq (s : State) : illegalCommand s = deliver .illegalCommand s := rfl

theorem clearRequest_eq (s : State) :
    clearRequest s = { s with
      keyBuf := [], inBuf := [], outBuf := [], outRp := 0, traceBuf := [], traceRp := 0
      done := false, err := none, ovf := false } := rfl

theorem applyReset_eq (s : State) :
    applyReset s = { State.resetOf s.cfg with pending := s.pending, readData := s.readData } := rfl

@[simp] theorem accept_busy (cmd : Cmd) (s : State) : (accept cmd s).busy = true := rfl
@[simp] theorem commit_busy (out : List Byte) (trace : List TraceEntry) (s : State) : (commit out trace s).busy = false := rfl
@[simp] theorem deliver_busy (e : Err) (s : State) : (deliver e s).busy = false := rfl
@[simp] theorem clearRequest_busy (s : State) : (clearRequest s).busy = s.busy := rfl
@[simp] theorem applyReset_busy (s : State) : (applyReset s).busy = false := rfl

/-! ### Buffers -/

theorem pushKey_cases (c : Byte) (s : State) :
    (s.keyBuf.length < 64 ∧ pushKey c s = s.setKeyBuf (s.keyBuf ++ [c])) ∨
    (64 ≤ s.keyBuf.length ∧ pushKey c s = s.setOvf true) := by
  unfold pushKey Config.keyDepth
  split
  · exact .inl ⟨‹_›, rfl⟩
  · exact .inr ⟨by omega, rfl⟩

theorem pushIn_cases (c : Byte) (s : State) :
    (s.inBuf.length < s.cfg.inDepth ∧ pushIn c s = s.setInBuf (s.inBuf ++ [c])) ∨
    (s.cfg.inDepth ≤ s.inBuf.length ∧ pushIn c s = s.setOvf true) := by
  unfold pushIn
  split
  · exact .inl ⟨‹_›, rfl⟩
  · exact .inr ⟨by omega, rfl⟩

theorem popOut_cases (s : State) :
    (∃ c, s.outBuf[s.outRp]? = some c ∧ popOut s = s.setOutRp (s.outRp + 1)) ∨
    (s.outBuf.length ≤ s.outRp ∧ popOut s = s) := by
  unfold popOut nextOut
  split
  · exact .inl ⟨_, ‹_›, rfl⟩
  · exact .inr ⟨by simpa using ‹s.outBuf[s.outRp]? = none›, rfl⟩

theorem popTrace_cases (s : State) :
    (∃ e, s.traceBuf[s.traceRp]? = some e ∧ popTrace s = s.setTraceRp (s.traceRp + 1)) ∨
    (s.traceBuf.length ≤ s.traceRp ∧ popTrace s = s) := by
  unfold popTrace nextTrace
  split
  · exact .inl ⟨_, ‹_›, rfl⟩
  · exact .inr ⟨by simpa using ‹s.traceBuf[s.traceRp]? = none›, rfl⟩

/-- What the side effect of a read can be: nothing, or one pointer moved inside its buffer. -/
theorem readEffect_cases (r : Reg) (s : State) :
    readEffect r s = s ∨
    (s.outRp < s.outBuf.length ∧ readEffect r s = s.setOutRp (s.outRp + 1)) ∨
    (s.traceRp < s.traceBuf.length ∧ readEffect r s = s.setTraceRp (s.traceRp + 1)) := by
  cases r
  case outPop =>
    obtain ⟨c, hc, h⟩ | ⟨_, h⟩ := popOut_cases s
    · exact .inr (.inl ⟨(List.getElem?_eq_some_iff.mp hc).1, h⟩)
    · exact .inl h
  case tracePop =>
    obtain ⟨e, he, h⟩ | ⟨_, h⟩ := popTrace_cases s
    · exact .inr (.inr ⟨(List.getElem?_eq_some_iff.mp he).1, h⟩)
    · exact .inl h
  all_goals exact .inl rfl

/-! ### Gating and the engine -/

theorem whenIdle_busy {f : State → State} {s : State} (h : s.busy = true) : whenIdle f s = .next s := by
  simp [whenIdle, h]

theorem whenIdle_idle {f : State → State} {s : State} (h : s.busy = false) : whenIdle f s = .next (f s) := by
  simp [whenIdle, h]

theorem whenIdle_next {f : State → State} {s t : State} (h : whenIdle f s = .next t) :
    (s.busy = true ∧ t = s) ∨ (s.busy = false ∧ t = f s) := by
  cases hb : s.busy
  · rw [whenIdle_idle hb] at h; injection h with h; exact .inr ⟨rfl, h.symm⟩
  · rw [whenIdle_busy hb] at h; injection h with h; exact .inl ⟨rfl, h.symm⟩

theorem conclude_cases (r : Result) (s : State) :
    (∃ out trace, r = .ok out trace ∧ conclude r s = commit out trace s) ∨
    (∃ e, r = .err e ∧ conclude r s = deliver e s) := by
  cases r with
  | ok out trace => exact .inl ⟨out, trace, rfl, rfl⟩
  | err e => exact .inr ⟨e, rfl, rfl⟩

@[simp] theorem complete_busy (s : State) : (complete s).busy = false := by
  unfold complete
  obtain ⟨_, _, _, h⟩ | ⟨_, _, h⟩ := conclude_cases (engineResult s.curCmd s.operands) s <;> rw [h] <;> rfl

theorem engineTurn_busy {s : State} (h : s.busy = true) : engineTurn s = complete s := by simp [engineTurn, h]
theorem engineTurn_idle {s : State} (h : s.busy = false) : engineTurn s = s := by simp [engineTurn, h]
theorem microTurn_idle {s : State} (h : s.busy = false) : microTurn s = s := by simp [microTurn, h]

/-- A micro-step writes the engine working storage and nothing else. -/
theorem microTurn_eq (s : State) : ∃ wk, microTurn s = s.setWork wk := by
  unfold microTurn
  split
  · exact ⟨_, rfl⟩
  · exact ⟨s.work, rfl⟩

/-- The operand state does not contain the fields that only the model or the engine uses. -/
@[simp] theorem operands_setPending (s : State) (ts : List Turn) : (s.setPending ts).operands = s.operands := rfl
@[simp] theorem operands_setReadData (s : State) (d : Word) : (s.setReadData d).operands = s.operands := rfl
@[simp] theorem operands_setWork (s : State) (wk : Work) : (s.setWork wk).operands = s.operands := rfl
@[simp] theorem operands_setCurCmd (s : State) (c : Cmd) : (s.setCurCmd c).operands = s.operands := rfl
@[simp] theorem operands_setResult (s : State) (out : List Byte) (tr : List TraceEntry) :
    (s.setResult out tr).operands = s.operands := rfl
@[simp] theorem operands_setStatus (s : State) (p : Phase) (d : Bool) (e : Option Err) :
    (s.setStatus p d e).operands = s.operands := rfl
@[simp] theorem operands_accept (cmd : Cmd) (s : State) : (accept cmd s).operands = s.operands := rfl

end Sys2Proof.Machine
end

