-- ==== Sys2Proof/Laws/PerInstr.lean ====
section
/-! SUPPORT. Statements made once per instruction, for the host's case split over `Instr`. -/

/-- The reserved bits [31:9] of the instruction's word are 0 (R63, R71). -/
def Sys2Proof.Laws.ReservedBitsZero.Statement (i : Sys2Proof.Instr) : Prop :=
  Sys2Proof.reservedField (Sys2Proof.encode i) = 0

namespace Sys2Proof.Laws

/-- The word of a command has its reserved bits 0, whatever its fields. -/
theorem packWord_reserved (sinv t mode dir alg : Bool) (op : BitVec 4) :
    Sys2Proof.reservedField (Sys2Proof.packWord sinv t mode dir alg op) = 0 := by
  revert op
  cases sinv <;> cases t <;> cases mode <;> cases dir <;> cases alg <;> decide

theorem ReservedBitsZero.nop : ReservedBitsZero.Statement .nop := packWord_reserved ..
theorem ReservedBitsZero.clr : ReservedBitsZero.Statement .clr := packWord_reserved ..
theorem ReservedBitsZero.shiftEnc (t sinv : Bool) : ReservedBitsZero.Statement (.shiftEnc t sinv) :=
  packWord_reserved ..
theorem ReservedBitsZero.shiftDec (t sinv : Bool) : ReservedBitsZero.Statement (.shiftDec t sinv) :=
  packWord_reserved ..
theorem ReservedBitsZero.aesEcbEnc : ReservedBitsZero.Statement .aesEcbEnc := packWord_reserved ..
theorem ReservedBitsZero.aesEcbDec : ReservedBitsZero.Statement .aesEcbDec := packWord_reserved ..
theorem ReservedBitsZero.aesCbcEnc : ReservedBitsZero.Statement .aesCbcEnc := packWord_reserved ..
theorem ReservedBitsZero.aesCbcDec : ReservedBitsZero.Statement .aesCbcDec := packWord_reserved ..

end Sys2Proof.Laws
end

