-- ==== Sys2Proof/Laws/Step.lean ====
section
/-! SUPPORT. What a command, a host access and one step can do, as inversion lemmas from which every claim about all
steps is derived. -/

namespace Sys2Proof.Machine

/-! ### Commands -/

/-- Every arm of `exec` is one of four effects, all gated by BUSY. -/
theorem exec_eq (i : Instr) (s : State) :
    (i = .nop ∧ exec i s = whenIdle id s) ∨
    (i = .clr ∧ exec i s = whenIdle clearRequest s) ∨
    (∃ cmd, i.run? = some cmd ∧ i.wf s.cfg.hasCbc = true ∧ exec i s = whenIdle (accept cmd) s) ∨
    (i.wf s.cfg.hasCbc = false ∧ exec i s = whenIdle illegalCommand s) := by
  cases i
  case nop => exact .inl ⟨rfl, rfl⟩
  case clr => exact .inr (.inl ⟨rfl, rfl⟩)
  case aesCbcEnc =>
    cases h : s.cfg.hasCbc
    · refine .inr (.inr (.inr ⟨rfl, ?_⟩)); simp [exec, execAesCbcEnc, whenIdle, acceptCbc, h]
    · refine .inr (.inr (.inl ⟨_, rfl, rfl, ?_⟩)); simp [exec, execAesCbcEnc, whenIdle, acceptCbc, h]
  case aesCbcDec =>
    cases h : s.cfg.hasCbc
    · refine .inr (.inr (.inr ⟨rfl, ?_⟩)); simp [exec, execAesCbcDec, whenIdle, acceptCbc, h]
    · refine .inr (.inr (.inl ⟨_, rfl, rfl, ?_⟩)); simp [exec, execAesCbcDec, whenIdle, acceptCbc, h]
  all_goals exact .inr (.inr (.inl ⟨_, rfl, rfl, rfl⟩))

/-- A command always answers a next state. -/
theorem exec_next (i : Instr) (s : State) : ∃ t, exec i s = .next t := by
  obtain ⟨_, h⟩ | ⟨_, h⟩ | ⟨_, _, _, h⟩ | ⟨_, h⟩ := exec_eq i s <;> exact ⟨_, h⟩

theorem exec_busy {i : Instr} {s : State} (hb : s.busy = true) : exec i s = .next s := by
  obtain ⟨_, h⟩ | ⟨_, h⟩ | ⟨_, _, _, h⟩ | ⟨_, h⟩ := exec_eq i s <;> rw [h, whenIdle_busy hb]

theorem exec_run {i : Instr} {s : State} {cmd : Cmd} (hr : i.run? = some cmd) (hw : i.wf s.cfg.hasCbc = true)
    (hb : s.busy = false) : exec i s = .next (accept cmd s) := by
  obtain ⟨rfl, _⟩ | ⟨rfl, _⟩ | ⟨_, hr', _, h⟩ | ⟨hw', _⟩ := exec_eq i s
  · simp [Instr.run?] at hr
  · simp [Instr.run?] at hr
  · rw [hr] at hr'; cases hr'; rw [h, whenIdle_idle hb]
  · rw [hw] at hw'; cases hw'

/-- A word decodes only to a legal command. -/
theorem decode_wf {h : Bool} {c : Word} {i : Instr} (hd : decode h c = some i) : i.wf h = true := by
  unfold decode decodeShift decodeAes at hd
  repeat' split at hd
  all_goals first
    | (cases hd; done)
    | (cases hd; cases h <;> simp_all [Instr.wf])

/-- What a write to CTRL can do. -/
theorem command_cases (c : Word) (s : State) :
    (s.busy = true ∧ command c s = .next s) ∨
    (s.busy = false ∧
      ((decode s.cfg.hasCbc c = some .nop ∧ command c s = .next s) ∨
       (decode s.cfg.hasCbc c = some .clr ∧ command c s = .next (clearRequest s)) ∨
       (∃ i cmd, decode s.cfg.hasCbc c = some i ∧ i.run? = some cmd ∧ command c s = .next (accept cmd s)) ∨
       (decode s.cfg.hasCbc c = none ∧ command c s = .next (illegalCommand s)))) := by
  unfold command
  cases hd : decode s.cfg.hasCbc c with
  | none =>
    cases hb : s.busy
    · simp [whenIdle_idle hb]
    · simp [whenIdle_busy hb]
  | some i =>
    cases hb : s.busy
    · obtain ⟨rfl, h⟩ | ⟨rfl, h⟩ | ⟨cmd, hr, _, h⟩ | ⟨hw, _⟩ := exec_eq i s
      · simp [h, whenIdle_idle hb]
      · simp [h, whenIdle_idle hb]
      · refine .inr ⟨rfl, .inr (.inr (.inl ⟨i, cmd, rfl, hr, ?_⟩))⟩
        simp [h, whenIdle_idle hb]
      · rw [decode_wf hd] at hw; cases hw
    · simp [exec_busy hb]

/-! ### The window -/

/-- The offset of a register is the one place `regAt?` finds it. -/
theorem regAt?_offset (r : Reg) : regAt? r.offset = some r := by cases r <;> rfl

theorem regAt?_some {n : Nat} {r : Reg} (h : regAt? n = some r) : n = r.offset := by
  unfold regAt? at h
  split at h <;> first | (cases h; rfl) | cases h

theorem offset_lt (r : Reg) : r.offset < 64 := by cases r <;> decide

theorem windowReg_offset (cfg : Config) (r : Reg) : windowReg cfg (cfg.base + r.offset) 4 = .ok r := by
  have h : regAt? (cfg.base + r.offset - cfg.base) = some r := by
    rw [Nat.add_sub_cancel_left]; exact regAt?_offset r
  unfold windowReg
  rw [if_neg (by have := offset_lt r; omega), if_neg (by decide), h]

/-- An access that reaches `r` is the word access at its offset. -/
theorem windowReg_ok {cfg : Config} {addr size : Nat} {r : Reg} (h : windowReg cfg addr size = .ok r) :
    addr = cfg.base + r.offset ∧ size = 4 := by
  unfold windowReg at h
  split at h
  · cases h
  · split at h
    · cases h
    · split at h
      · rename_i hr
        cases h
        have := regAt?_some hr
        omega
      · cases h

/-! ### One step -/

/-- Everything a step that answers a next state can do, in the state `u` whose turn has been taken. -/
theorem step_cases {s t : State} (h : step s = .next t) :
    (s.pending = [] ∧ t = engineTurn s) ∨
    ∃ ts, (s.pending = .engine :: ts ∧ t = engineTurn (s.setPending ts)) ∨
      (s.pending = .micro :: ts ∧ t = microTurn (s.setPending ts)) ∨
      (s.pending = .reset :: ts ∧ t = applyReset (s.setPending ts)) ∨
      (∃ r, s.pending = readTurn s.cfg r :: ts ∧ t = hostRead r (s.setPending ts)) ∨
      (∃ r d, s.pending = writeTurn s.cfg r d :: ts ∧ s.busy = true ∧ t = s.setPending ts) ∨
      (∃ r d, s.pending = writeTurn s.cfg r d :: ts ∧ s.busy = false ∧ r ≠ .ctrl ∧
        t = writeEffect r d (s.setPending ts)) ∨
      (∃ c, s.pending = writeTurn s.cfg .ctrl c :: ts ∧ s.busy = false ∧
        command c (s.setPending ts) = .next t) := by
  unfold step runTurn at h
  split at h
  · injection h with h; exact .inl ⟨‹_›, h.symm⟩
  · rename_i tn ts hp
    refine .inr ⟨ts, ?_⟩
    unfold takeTurn at h
    split at h
    · rename_i addr size d
      split at h
      · rename_i r hr
        obtain ⟨ha, hs⟩ := windowReg_ok hr
        have hp' : s.pending = writeTurn s.cfg r d :: ts := by
          rw [hp]; simp only [State.setPending_cfg] at ha; rw [ha, hs]; rfl
        by_cases hc : r = .ctrl
        · subst hc
          cases hb : s.busy
          · exact .inr (.inr (.inr (.inr (.inr (.inr ⟨d, hp', rfl, h⟩)))))
          · obtain ⟨_, h'⟩ | ⟨h', _⟩ := command_cases d (s.setPending ts)
            · refine .inr (.inr (.inr (.inr (.inl ⟨_, d, hp', rfl, ?_⟩))))
              simp only [hostWrite] at h
              rw [h'] at h; injection h with h; exact h.symm
            · simp [hb] at h'
        · have hw : whenIdle (writeEffect r d) (s.setPending ts) = .next t := by
            unfold hostWrite at h
            split at h
            · exact absurd rfl hc
            · exact h
          obtain ⟨hb, ht⟩ | ⟨hb, ht⟩ := whenIdle_next hw
          · exact .inr (.inr (.inr (.inr (.inl ⟨r, d, hp', by simpa using hb, ht⟩))))
          · exact .inr (.inr (.inr (.inr (.inr (.inl ⟨r, d, hp', by simpa using hb, hc, ht⟩)))))
      · cases h
    · rename_i addr size
      split at h
      · rename_i r hr
        obtain ⟨ha, hs⟩ := windowReg_ok hr
        injection h with h
        refine .inr (.inr (.inr (.inl ⟨r, ?_, h.symm⟩)))
        rw [hp]; simp only [State.setPending_cfg] at ha; rw [ha, hs]; rfl
      · cases h
    · injection h with h; exact .inl ⟨hp, h.symm⟩
    · injection h with h; exact .inr (.inl ⟨hp, h.symm⟩)
    · injection h with h; exact .inr (.inr (.inl ⟨hp, h.symm⟩))

/-- A write turn's step. -/
theorem step_write {s : State} {r : Reg} {d : Word} {ts : List Turn} (h : s.pending = writeTurn s.cfg r d :: ts) :
    step s = hostWrite r d (s.setPending ts) := by
  unfold step runTurn
  rw [h]
  simp only [takeTurn, writeTurn, State.setPending_cfg, windowReg_offset]

/-- A read turn's step. -/
theorem step_read {s : State} {r : Reg} {ts : List Turn} (h : s.pending = readTurn s.cfg r :: ts) :
    step s = .next (hostRead r (s.setPending ts)) := by
  unfold step runTurn
  rw [h]
  simp only [takeTurn, readTurn, State.setPending_cfg, windowReg_offset]

theorem step_engine {s : State} {ts : List Turn} (h : s.pending = .engine :: ts) :
    step s = .next (engineTurn (s.setPending ts)) := by unfold step runTurn; rw [h]; rfl

theorem step_micro {s : State} {ts : List Turn} (h : s.pending = .micro :: ts) :
    step s = .next (microTurn (s.setPending ts)) := by unfold step runTurn; rw [h]; rfl

theorem step_reset {s : State} {ts : List Turn} (h : s.pending = .reset :: ts) :
    step s = .next (applyReset (s.setPending ts)) := by unfold step runTurn; rw [h]; rfl

theorem step_nil {s : State} (h : s.pending = []) : step s = .next (engineTurn s) := by
  unfold step runTurn; rw [h]

/-- One more step of a run. -/
theorem runSteps_succ (k : Nat) (s : State) :
    runSteps (k + 1) s = match step s with
      | .next t => runSteps k t
      | .fault r => .fault r
      | .refused r => .refused r := by
  refine (Host.Core.run.eq_2 Sys2Proof.core s k).trans ?_
  generalize h : step s = o
  have h' : Sys2Proof.core.step s = o := h
  rw [h']
  cases o <;> rfl

theorem runSteps_zero (s : State) : runSteps 0 s = .next s := rfl

end Sys2Proof.Machine
end

