-- ==== Sys2Proof/Tests/Slice0.lean ====
section
/-! SUPPORT. Tests. The expected values are those of `95_test_vectors.md` (the vector or program is named), of
`30_encoding.md` R64 for the words, and of the rule named otherwise. After the tests stand the witnesses: for every
obligation with hypotheses, inputs that meet them all together, one for each clause. -/

namespace Sys2Proof.Tests

open Sys2Proof Sys2Proof.Machine

/-- The `n` lower case hex digits of `v`, most significant first. -/
def hexText (n v : Nat) : List Byte :=
  (List.range n).map fun i =>
    let d := v / 16 ^ (n - 1 - i) % 16
    BitVec.ofNat 8 (if d < 10 then 48 + d else 87 + d)

/-- K0, P0 and C0 of `95_test_vectors.md`. -/
def k0 : List Byte := hexText 32 0x000102030405060708090a0b0c0d0e0f
def p0 : List Byte := hexText 32 0x00112233445566778899aabbccddeeff
def c0 : List Byte := hexText 32 0x69c4e0d86a7b0430d8cdb78070b4c55a

/-- The reset state with these turns to come. -/
def fresh (ts : List Turn) : State := { State.reset with pending := ts }

/-- An idle state with these operands. -/
def ready (key text : List Byte) (shift : Word) : State :=
  { State.reset with keyBuf := key, inBuf := text, shift := shift }

/-- A SHIFT.ENC,T of `A` by 1 that runs, with these turns to come. -/
def running (ts : List Turn) : State :=
  { State.reset with
    phase := .running, inBuf := [0x41], shift := 1, curCmd := ⟨.shift, .encrypt, .ecb, true, false⟩, pending := ts }

/-- A finished SHIFT.ENC,T of `A` by 1, with these turns to come. -/
def finishedShift (ts : List Turn) : State :=
  { running ts with phase := .idle, done := true, outBuf := [0x42], traceBuf := [⟨0x41, 0x42, 0⟩] }

/-- The state `exec` answers; the same state where it answers none. -/
def after (i : Instr) (s : State) : State :=
  match exec i s with
  | .next t => t
  | .fault _ => s
  | .refused _ => s

/-- A command carried to its completion step. -/
def ran (i : Instr) (s : State) : State := engineTurn (after i s)

/-- The state a step answers; the same state where it answers none. -/
def stepped (s : State) : State :=
  match step s with
  | .next t => t
  | .fault _ => s
  | .refused _ => s

/-! ### Well-formedness and decoding (R64, R71) -/

theorem test_wf_refuses_cbc_enc_without_cbc : Instr.wf false .aesCbcEnc = false := by decide
theorem test_wf_refuses_cbc_dec_without_cbc : Instr.wf false .aesCbcDec = false := by decide
theorem test_decode_nop : decode true 0b00000000000000000000000000000000#32 = some .nop := by decide
theorem test_decode_clr : decode true 0b00000000000000000000000000000010#32 = some .clr := by decide
theorem test_decode_shiftEnc : decode true 0b00000000000000000000000010000001#32 = some (.shiftEnc true false) := by
  decide
theorem test_decode_shiftEnc_sinv : decode true 0b00000000000000000000000100000001#32 = some (.shiftEnc false true) := by
  decide
theorem test_decode_shiftDec : decode true 0b00000000000000000000000110100001#32 = some (.shiftDec true true) := by
  decide
theorem test_decode_aesEcbEnc : decode true 0b00000000000000000000000000010001#32 = some .aesEcbEnc := by decide
theorem test_decode_aesEcbDec : decode true 0b00000000000000000000000000110001#32 = some .aesEcbDec := by decide
theorem test_decode_aesCbcEnc : decode true 0b00000000000000000000000001010001#32 = some .aesCbcEnc := by decide
theorem test_decode_aesCbcDec : decode true 0b00000000000000000000000001110001#32 = some .aesCbcDec := by decide
/-- The illegal words listed in part 7. -/
theorem test_decode_illegal : ([0x3#32, 0xF#32, 0x10#32, 0x20#32, 0x80#32, 0x100#32, 0x12#32, 0x22#32, 0x41#32,
    0x61#32, 0xC1#32, 0x91#32, 0xB1#32, 0xD1#32, 0x111#32, 0x131#32, 0x151#32, 0x201#32, 0x10001#32, 0x80000001#32,
    0xFFFFFFFF#32].map (decode true)).all Option.isNone = true := by decide
theorem test_decode_cbc_needs_hasCbc : decode false 0x51#32 = none ∧ decode false 0x71#32 = none := by decide
theorem test_table_word_cbc : decodeTableWord 32 0x71 = some .aesCbcDec := by decide
/-- A placed word is what the first step after reset runs. -/
theorem test_fetch_word_runs_first :
    stepped (State.reset.withFetchWord 32 0x81) = after (.shiftEnc true false) State.reset := by decide +kernel

/-! ### Commands -/

/-- V68: NOP leaves an error report as it is. -/
theorem test_nop_keeps_error : statusWord (after .nop (illegalCommand State.reset)) = 0x72 := by decide
/-- P6: CLR clears OVF with the rest. -/
theorem test_clr_clears_ovf : statusWord (after .clr ((ready [] [0x61] 0).setOvf true)) = 0 := by decide
/-- P2: CLR while BUSY = 1 is dropped. -/
theorem test_clr_dropped_when_busy : (after .clr (running [])).inBuf = [0x41] := by decide
/-- V18: codes that are no letters pass through, a letter next to its range's end wraps. -/
theorem test_shiftEnc_v18 :
    (ran (.shiftEnc true false) (ready [] [0x00, 0x7F, 0x80, 0xFF, 0xE9, 0x41, 0x7A] 1)).outBuf =
      [0x00, 0x7F, 0x80, 0xFF, 0xE9, 0x42, 0x61] := by decide +kernel
/-- V18: its trace, as TRACE_POP returns it. -/
theorem test_shiftEnc_v18_trace :
    (ran (.shiftEnc true false) (ready [] [0x00, 0x7F, 0x80, 0xFF, 0xE9, 0x41, 0x7A] 1)).traceBuf.map
      (fun e => traceWord (some e)) = [0x80054241, 0x8006617A] := by decide +kernel
/-- V13: the most negative amount. -/
theorem test_shiftDec_v13 :
    (ran (.shiftDec false false) (ready [] [0x41, 0x62, 0x43] 0x80000000)).outBuf = [0x59, 0x7A, 0x41] := by
  decide +kernel
/-- V2e: SINV. -/
theorem test_shiftDec_v2e :
    statusWord (ran (.shiftDec true true) (ready [] [0x41, 0x62, 0x43] 1)) = 0x42 := by decide +kernel
/-- V20, the source's S5. -/
theorem test_aesEcbEnc_v20 : (ran .aesEcbEnc (ready k0 p0 0)).outBuf = c0 := by decide +kernel
/-- P4: 30 digits. -/
theorem test_aesEcbEnc_p4 : statusWord (ran .aesEcbEnc (ready k0 (p0.take 30) 0)) = 0x22 := by decide +kernel
/-- V21. -/
theorem test_aesEcbDec_v21 : (ran .aesEcbDec (ready k0 c0 0)).outBuf = p0 := by decide +kernel
/-- V66's code, for decryption too (R208). -/
theorem test_aesEcbDec_no_key : statusWord (ran .aesEcbDec State.reset) = 0x12 := by decide +kernel

/-- The IV of P5. -/
def withIv (s : State) : State :=
  { s with iv0 := 0x0F0E0D0C, iv1 := 0x0B0A0908, iv2 := 0x07060504, iv3 := 0x03020100 }

/-- P5: the five bytes 48656c6c6f. -/
theorem test_aesCbcEnc_p5 :
    (ran .aesCbcEnc (withIv (ready k0 (hexText 10 0x48656c6c6f) 0))).outBuf =
      hexText 32 0xc631a73cb4fb3cedcf86ba4e01a9d84f := by decide +kernel
/-- V60: without CBC. -/
theorem test_aesCbcEnc_v60 :
    statusWord (after .aesCbcEnc (State.resetOf ⟨1024, false, 0⟩)) = 0x72 := by decide
/-- P5, back. -/
theorem test_aesCbcDec_p5 :
    (ran .aesCbcDec (withIv (ready k0 (hexText 32 0xc631a73cb4fb3cedcf86ba4e01a9d84f) 0))).outBuf =
      hexText 10 0x48656c6c6f := by decide +kernel
/-- V57: the last byte is no pad length. -/
theorem test_aesCbcDec_v57 : statusWord (ran .aesCbcDec (ready k0 c0 0)) = 0x62 := by decide +kernel

/-! ### Registers, tables, amounts -/

/-- V62: CAP of three instances. -/
theorem test_cap_v62 : capWord ⟨1024, true, 0⟩ = 0x00010400 ∧ capWord ⟨1024, false, 0⟩ = 0x00000400 ∧
    capWord ⟨32, true, 0⟩ = 0x00010020 := by decide
/-- V64: the upper bits of a pushed datum are ignored. -/
theorem test_push_v64 : (stepped (fresh [writeTurn Config.default .inPush 0xFFFFFF41])).inBuf = [0x41] := by
  decide +kernel
/-- R81's table: the sign of the amount. -/
theorem test_norm_shift : [0xFFFFFFFF#32, 0x80000000#32, 0x7FFFFFFF#32, 0xFFFFFFE6#32, 0x64#32].map normShift =
    [25, 2, 23, 0, 22] := by decide
/-- V24. -/
theorem test_gmul_v24 : gmul 0x57 0x13 = 0xFE ∧ gmul 0x57 0x83 = 0xC1 ∧ gmul 0x03 0x80 = 0x9B ∧
    xtime 0x80 = 0x1B := by decide
/-- V23: the last round key of K0. -/
theorem test_key_schedule_v23 :
    (keyExpand ⟨.ofWord 0x00010203, .ofWord 0x04050607, .ofWord 0x08090a0b, .ofWord 0x0c0d0e0f⟩).drop 40 =
      [0x13111d7f, 0xe3944a17, 0xf307a78b, 0x4d2b30c5] := by decide +kernel
/-- Part 4: ShiftRows on the bytes 0 to 15. -/
theorem test_shift_rows :
    (shiftRows (Block.ofBytes [0, 1, 2, 3, 4, 5, 6, 7, 8, 9, 10, 11, 12, 13, 14, 15])).toBytes =
      [0x00, 0x05, 0x0a, 0x0f, 0x04, 0x09, 0x0e, 0x03, 0x08, 0x0d, 0x02, 0x07, 0x0c, 0x01, 0x06, 0x0b] := by decide
/-- V25: one column through MixColumns and back. -/
theorem test_mix_column_v25 : mixColumn ⟨0xdb, 0x13, 0x53, 0x45⟩ = ⟨0x8e, 0x4d, 0xa1, 0xbc⟩ ∧
    invMixColumn ⟨0x8e, 0x4d, 0xa1, 0xbc⟩ = ⟨0xdb, 0x13, 0x53, 0x45⟩ := by decide

/-! ### Witnesses

Each gives, for one clause of one obligation, inputs that meet its hypotheses together. -/

/-- The invariants of the states used below. -/
theorem running_inv (ts : List Turn) : (running ts).Inv := by
  constructor <;> simp [running, State.reset, State.resetOf, State.busy, Config.default, Config.wf, Config.keyDepth,
    Config.outDepth, Config.traceDepth]
theorem finishedShift_inv (ts : List Turn) : (finishedShift ts).Inv := by
  constructor <;> simp [finishedShift, running, State.reset, State.resetOf, State.busy, Config.default, Config.wf,
    Config.keyDepth, Config.outDepth, Config.traceDepth]

theorem witness_DecodeEncodeAgree :
    Instr.wf true .aesCbcDec = true ∧ Instr.wf false (.shiftEnc true true) = true ∧
    decode true 0x71 = some .aesCbcDec ∧ decode false 0x1A1 = some (.shiftDec true true) := by decide

theorem witness_IllegalCommandWords : State.reset.busy = false ∧ decode State.reset.cfg.hasCbc 0x41 = none := by decide

theorem witness_StepRunsDecodedCommand_turn : ∃ (s : State) (c : Word) (i : Instr) (rest : List Turn),
    s.pending = writeTurn s.cfg .ctrl c :: rest ∧ decode s.cfg.hasCbc c = some i :=
  ⟨fresh [writeTurn Config.default .ctrl 2], 2, .clr, [], rfl, rfl⟩
theorem witness_StepRunsDecodedCommand_placed :
    decode State.reset.cfg.hasCbc (BitVec.ofNat 32 (0x71 % 2 ^ 32)) = some .aesCbcDec := by decide

/-- A window at 0x100: the addresses next to its ends, its last byte, a byte access, its first and last registers. -/
theorem witness_OnlyAlignedWordAccessesInsideWindow_ends :
    windowReg ⟨1024, true, 0x100⟩ 0xFF 4 = .error (.outsideWindow 0xFF) ∧
    windowReg ⟨1024, true, 0x100⟩ 0x140 4 = .error (.outsideWindow 0x140) ∧
    windowReg ⟨1024, true, 0x100⟩ 0x13F 4 = .error (.notWordAccess 0x13F 4) ∧
    windowReg ⟨1024, true, 0x100⟩ 0x100 1 = .error (.notWordAccess 0x100 1) ∧
    windowReg ⟨1024, true, 0x100⟩ 0x100 4 = .ok .ctrl ∧ windowReg ⟨1024, true, 0x100⟩ 0x13C 4 = .ok .cap :=
  ⟨rfl, rfl, rfl, rfl, rfl, rfl⟩
theorem witness_OnlyAlignedWordAccessesInsideWindow_write : ∃ (s : State) (rest : List Turn) (e : Refusal),
    windowReg s.cfg 64 4 = .error e ∧ s.pending = .write 64 4 0 :: rest :=
  ⟨fresh [.write 64 4 0], [], .outsideWindow 64, rfl, rfl⟩
theorem witness_OnlyAlignedWordAccessesInsideWindow_read : ∃ (s : State) (rest : List Turn) (e : Refusal),
    windowReg s.cfg 62 2 = .error e ∧ s.pending = .read 62 2 :: rest :=
  ⟨fresh [.read 62 2], [], .notWordAccess 62 2, rfl, rfl⟩

theorem witness_ResetInAnyState : (running [.reset, .engine]).pending = .reset :: [.engine] := by decide

theorem witness_RunStraightAfterReset :
    Instr.run? (.shiftDec true false) = some ⟨.shift, .decrypt, .ecb, true, false⟩ ∧
    Instr.wf false (.shiftDec true false) = true ∧
    Instr.run? .aesCbcDec = some ⟨.aes, .decrypt, .cbc, false, false⟩ ∧ Instr.wf true .aesCbcDec = true := by decide

theorem witness_InvariantsAtReset :
    Config.wf ⟨32, true, 0⟩ = true ∧ Config.wf ⟨32736, false, 0⟩ = true ∧ Config.wf ⟨31, true, 0⟩ = false ∧
    Config.wf ⟨32737, true, 0⟩ = false := by decide

theorem witness_StepKeepsInvariants : ∃ s t : State, s.Inv ∧ step s = .next t :=
  ⟨running [.engine], _, running_inv _, rfl⟩

theorem witness_ReachableStatesHaveInvariants :
    Config.wf ⟨32, true, 0⟩ = true ∧
    ∃ t, runSteps 2 ((State.resetOf ⟨32, true, 0⟩).setPending [writeTurn ⟨32, true, 0⟩ .ctrl 1, .engine]) = .next t :=
  ⟨rfl, _, rfl⟩

theorem witness_ParametersNeverChange : ∃ t, step (running [.reset]) = .next t := ⟨_, rfl⟩

theorem witness_WritesWhileBusyDropped_write : ∃ (s : State) (d : Word) (rest : List Turn),
    s.busy = true ∧ s.pending = writeTurn s.cfg .ctrl d :: rest :=
  ⟨running [writeTurn Config.default .ctrl 2], 2, [], rfl, rfl⟩
theorem witness_WritesWhileBusyDropped_end : ∃ s t : State, s.busy = true ∧ step s = .next t ∧ t.busy = false :=
  ⟨running [.engine], _, rfl, rfl, rfl⟩

theorem witness_ReadOnlyAndWriteOnlyRegisters_write : ∃ (s : State) (rest : List Turn) (d : Word),
    s.pending = writeTurn s.cfg .outPop d :: rest := ⟨finishedShift [writeTurn Config.default .outPop 7], [], 7, rfl⟩
theorem witness_ReadOnlyAndWriteOnlyRegisters_read : ∃ (s : State) (rest : List Turn),
    s.pending = readTurn s.cfg .inPush :: rest := ⟨running [readTurn Config.default .inPush], [], rfl⟩

theorem witness_OperandRegisterWrites : ∀ r ∈ [Reg.shift, .iv0, .iv1, .iv2, .iv3],
    (fresh [writeTurn Config.default r 0xFFFFFFFF]).busy = false ∧
    (fresh [writeTurn Config.default r 0xFFFFFFFF]).pending =
      [writeTurn (fresh [writeTurn Config.default r 0xFFFFFFFF]).cfg r 0xFFFFFFFF] := by decide

/-- 63 characters: the last that fits. -/
theorem witness_KeyPushAppendsOrOverflows_fits : ∃ (s : State) (rest : List Turn) (d : Word),
    s.busy = false ∧ s.pending = writeTurn s.cfg .keyPush d :: rest ∧ s.keyBuf.length < 64 :=
  ⟨(fresh [writeTurn Config.default .keyPush 0]).setKeyBuf (List.replicate 63 0x30), [], 0, rfl, rfl, by decide⟩
/-- 64 characters: the first that does not. -/
theorem witness_KeyPushAppendsOrOverflows_full : ∃ (s : State) (rest : List Turn) (d : Word),
    s.busy = false ∧ s.pending = writeTurn s.cfg .keyPush d :: rest ∧ 64 ≤ s.keyBuf.length :=
  ⟨(fresh [writeTurn Config.default .keyPush 0]).setKeyBuf (List.replicate 64 0x30), [], 0, rfl, rfl, by decide⟩

/-- The reset state of an instance with the least IN_DEPTH, with `n` characters and these turns. -/
def small (n : Nat) (ts : List Turn) : State :=
  { State.resetOf ⟨32, true, 0⟩ with inBuf := List.replicate n 0x61, pending := ts }

theorem witness_InPushAppendsOrOverflows_fits : ∃ (s : State) (rest : List Turn) (d : Word),
    s.busy = false ∧ s.pending = writeTurn s.cfg .inPush d :: rest ∧ s.inBuf.length < s.cfg.inDepth :=
  ⟨small 31 [writeTurn ⟨32, true, 0⟩ .inPush 0], [], 0, rfl, rfl, by decide⟩
theorem witness_InPushAppendsOrOverflows_full : ∃ (s : State) (rest : List Turn) (d : Word),
    s.busy = false ∧ s.pending = writeTurn s.cfg .inPush d :: rest ∧ s.cfg.inDepth ≤ s.inBuf.length :=
  ⟨small 32 [writeTurn ⟨32, true, 0⟩ .inPush 0], [], 0, rfl, rfl, by decide⟩
theorem witness_InPushAppendsOrOverflows_sticky : ∃ s t : State, step s = .next t ∧ s.ovf = true :=
  ⟨(fresh [.micro]).setOvf true, _, rfl, rfl⟩
theorem witness_InPushAppendsOrOverflows_completes : ∃ s t : State, step s = .next t ∧ s.ovf = true ∧ s.completes :=
  ⟨(running [.engine]).setOvf true, _, rfl, rfl, rfl, .inr rfl⟩

theorem witness_OutPopReturnsNextCharacter_some : ∃ (s : State) (rest : List Turn) (c : Byte),
    s.pending = readTurn s.cfg .outPop :: rest ∧ s.outBuf[s.outRp]? = some c :=
  ⟨finishedShift [readTurn Config.default .outPop], [], 0x42, rfl, rfl⟩
theorem witness_OutPopReturnsNextCharacter_empty : ∃ (s : State) (rest : List Turn),
    s.pending = readTurn s.cfg .outPop :: rest ∧ s.outBuf.length ≤ s.outRp :=
  ⟨(finishedShift [readTurn Config.default .outPop]).setOutRp 1, [], rfl, by decide⟩
theorem witness_OutPopReturnsNextCharacter_pointer : ∃ s t : State, s.Inv ∧ step s = .next t :=
  ⟨finishedShift [writeTurn Config.default .ctrl 1], _, finishedShift_inv _, rfl⟩

theorem witness_TracePopReturnsNextEntry_some : ∃ (s : State) (rest : List Turn) (e : TraceEntry),
    s.pending = readTurn s.cfg .tracePop :: rest ∧ s.traceBuf[s.traceRp]? = some e :=
  ⟨finishedShift [readTurn Config.default .tracePop], [], ⟨0x41, 0x42, 0⟩, rfl, rfl⟩
theorem witness_TracePopReturnsNextEntry_empty : ∃ (s : State) (rest : List Turn),
    s.pending = readTurn s.cfg .tracePop :: rest ∧ s.traceBuf.length ≤ s.traceRp :=
  ⟨(finishedShift [readTurn Config.default .tracePop]).setTraceRp 1, [], rfl, by decide⟩

theorem witness_PopsReadTheResultInOrder_out : ∃ (s : State) (k : Nat) (c : Byte) (rest : List Turn),
    s.outRp = 0 ∧ s.outBuf[k]? = some c ∧
    s.pending = List.replicate (k + 1) (readTurn s.cfg .outPop) ++ rest :=
  ⟨{ finishedShift (List.replicate 2 (readTurn Config.default .outPop)) with outBuf := [0x42, 0x43] }, 1, 0x43, [],
    rfl, rfl, rfl⟩
theorem witness_PopsReadTheResultInOrder_trace : ∃ (s : State) (k : Nat) (e : TraceEntry) (rest : List Turn),
    s.traceRp = 0 ∧ s.traceBuf[k]? = some e ∧
    s.pending = List.replicate (k + 1) (readTurn s.cfg .tracePop) ++ rest :=
  ⟨finishedShift [readTurn Config.default .tracePop], 0, ⟨0x41, 0x42, 0⟩, [], rfl, rfl, rfl⟩

theorem witness_ReadsAreLegalInEveryState_all : ∀ r ∈ [Reg.status, .shift, .iv0, .iv1, .iv2, .iv3, .keyLen, .inLen,
      .outLen, .traceLen, .cap],
    (running [readTurn Config.default r]).pending = [readTurn (running [readTurn Config.default r]).cfg r] := by decide
theorem witness_ReadsAreLegalInEveryState_busy : ∃ (s : State) (rest : List Turn),
    s.Inv ∧ s.busy = true ∧ s.pending = readTurn s.cfg .tracePop :: rest :=
  ⟨running [readTurn Config.default .tracePop], [], running_inv _, rfl, rfl⟩

theorem witness_StatusLayout : (running []).Inv ∧ (finishedShift []).Inv := ⟨running_inv _, finishedShift_inv _⟩

theorem witness_LengthAndCapRegistersExact : (finishedShift []).Inv := finishedShift_inv _

theorem witness_ShiftAmounts : (0 : Nat) ≤ 25 ∧ (25 : Nat) ≤ 25 ∧ normShift 0x80000000 = 2 := by decide

theorem witness_ShiftCipherLaws :
    normShift 26 = 0 ∧ (25 : Nat) ≤ 25 ∧ isAlpha 0x40 = false ∧ isAlpha 0x5B = false ∧
    (0x7FFFFFE5#32).toInt + 26 < 2 ^ 31 ∧ (0x80000000#32).toInt + 26 < 2 ^ 31 := by decide

theorem witness_TraceHasOneEntryPerLetter (n : Nat) (h : n = 32736) :
    (List.replicate n (0x41 : Byte)).length ≤ 32736 := by
  rw [List.length_replicate, h]

theorem witness_SboxTables : gmul 0x53 0xCA = 1 ∧ (0x53 : Byte) ≠ 0 := by decide

theorem witness_KeyScheduleAndRoundKeys : (4 ≤ 4 ∧ 4 < 44) ∧ (4 ≤ 43 ∧ 43 < 44) ∧ 3 ≤ 3 := by decide

theorem witness_ShiftRowsPermutesBytes : (3 : Nat) ≤ 3 ∧ (0 : Nat) ≤ 3 := by decide

theorem witness_HexDecodeMeaning :
    hexVal 0x46 = some 15 ∧ hexVal 0x47 = none ∧ hexDecode [] = some [] ∧ hexDecode [0x61, 0x42] = some [0xAB] ∧
    ([0xAB] : List Byte)[0]? = some 0xAB := by decide

theorem witness_HexRoundTrip :
    hexDecode [0x61, 0x42] = some [0xAB] ∧ hexDecode [0x61, 0x62] = some [0xAB] ∧
    (∀ c ∈ ([0x61, 0x62] : List Byte), ¬(0x41 ≤ c.toNat ∧ c.toNat ≤ 0x46)) := by decide

theorem witness_PaddingRoundTrip :
    0 < (List.replicate 16 (16 : Byte)).length ∧ (List.replicate 16 (16 : Byte)).length % 16 = 0 ∧
    unpad (List.replicate 16 16) = some [] := by decide

theorem witness_ModeRoundTrips :
    ([] : List Byte).length % 16 = 0 ∧ (List.replicate 32 (7 : Byte)).length % 16 = 0 := by decide

/-- The operand hypotheses of (a) and (b); then runs that succeed, for (c): V39, V31, V30 back. -/
theorem witness_AesRunLaws_operands :
    ∃ kb db, hexDecode k0 = some kb ∧ kb.length = 16 ∧ hexDecode p0 = some db ∧ db.length % 16 = 0 ∧
      ∀ c ∈ p0, ¬(0x41 ≤ c.toNat ∧ c.toNat ≤ 0x46) :=
  ⟨[0, 1, 2, 3, 4, 5, 6, 7, 8, 9, 10, 11, 12, 13, 14, 15],
    [0x00, 0x11, 0x22, 0x33, 0x44, 0x55, 0x66, 0x77, 0x88, 0x99, 0xaa, 0xbb, 0xcc, 0xdd, 0xee, 0xff],
    by decide +kernel, rfl, by decide +kernel, rfl, by decide +kernel⟩
theorem witness_AesRunLaws_ecb : aesRun .encrypt .ecb k0 [] .zero = .ok [] := by decide +kernel
theorem witness_AesRunLaws_cbc_enc :
    aesRun .encrypt .cbc k0 [] .zero = .ok (hexText 32 0x954f64f2e4e86e9eee82d20216684899) := by decide +kernel
theorem witness_AesRunLaws_cbc_dec :
    aesRun .decrypt .cbc k0 (c0 ++ hexText 32 0x9e978e6d16b086570ef794ef97984232) .zero = .ok p0 := by decide +kernel
theorem witness_AesRunLaws_fits : (p0 ++ p0).length ≤ (⟨64, true, 0⟩ : Config).inDepth := by decide +kernel

theorem witness_ClrStartsNewRequest : (finishedShift []).busy = false ∧ (running []).busy = true := by decide

theorem witness_RunAcceptance :
    Instr.run? .aesCbcDec = some ⟨.aes, .decrypt, .cbc, false, false⟩ ∧
    Instr.wf (finishedShift []).cfg.hasCbc .aesCbcDec = true ∧ (finishedShift []).busy = false := by decide

theorem witness_IllegalCommandReportsAtOnce : ∃ (s : State) (c : Word) (rest : List Turn),
    s.busy = false ∧ decode s.cfg.hasCbc c = none ∧ s.pending = writeTurn s.cfg .ctrl c :: rest :=
  ⟨finishedShift [writeTurn Config.default .ctrl 0x41], 0x41, [], rfl, rfl, rfl⟩

theorem witness_CbcCommandsNeedHasCbc :
    Instr.wf false .aesCbcDec = false ∧ (State.resetOf ⟨32, false, 0⟩).busy = false ∧
    Instr.wf (State.resetOf ⟨32, false, 0⟩).cfg.hasCbc .aesCbcEnc = false := by decide

/-- A text with OVF set, and an empty text. -/
theorem witness_ShiftEncResult :
    ((ready [] [0x41] 1).setOvf true).busy = false ∧ (ready [] [] 0xFFFFFFFF).busy = false := by decide

theorem witness_ShiftDecResult :
    (ready [] [0x41] 1).busy = false ∧ normShift 0xFFFFFFFD = (26 - normShift 3) % 26 ∧
    normShift 26 = (26 - normShift 0) % 26 := by decide

/-- For each AES command: OVF set; a run that succeeds; one that fails. -/
theorem witness_AesEcbEncResult_ovf :
    ((ready k0 [] 0).setOvf true).busy = false ∧ ((ready k0 [] 0).setOvf true).ovf = true := by decide
theorem witness_AesEcbEncResult_ok : ∃ (s : State) (o : List Byte), s.busy = false ∧ s.ovf = false ∧
    aesRun .encrypt .ecb s.keyBuf s.inBuf s.iv = .ok o := ⟨ready k0 p0 0, c0, rfl, rfl, by decide +kernel⟩
theorem witness_AesEcbEncResult_error : ∃ (s : State) (e : Err), s.busy = false ∧ s.ovf = false ∧
    aesRun .encrypt .ecb s.keyBuf s.inBuf s.iv = .error e :=
  ⟨ready k0 [0x30] 0, .encoding, rfl, rfl, by decide +kernel⟩

theorem witness_AesEcbDecResult_ovf :
    ((ready k0 [] 0).setOvf true).busy = false ∧ ((ready k0 [] 0).setOvf true).ovf = true := by decide
theorem witness_AesEcbDecResult_ok : ∃ (s : State) (o : List Byte), s.busy = false ∧ s.ovf = false ∧
    aesRun .decrypt .ecb s.keyBuf s.inBuf s.iv = .ok o := ⟨ready k0 [] 0, [], rfl, rfl, by decide +kernel⟩
theorem witness_AesEcbDecResult_error : ∃ (s : State) (e : Err), s.busy = false ∧ s.ovf = false ∧
    aesRun .decrypt .ecb s.keyBuf s.inBuf s.iv = .error e :=
  ⟨ready [] c0 0, .keyLength, rfl, rfl, by decide +kernel⟩

theorem witness_AesCbcEncResult_ovf :
    ((ready k0 [] 0).setOvf true).busy = false ∧ ((ready k0 [] 0).setOvf true).cfg.hasCbc = true ∧
    ((ready k0 [] 0).setOvf true).ovf = true := by decide
theorem witness_AesCbcEncResult_ok : ∃ (s : State) (o : List Byte), s.busy = false ∧ s.cfg.hasCbc = true ∧
    s.ovf = false ∧ aesRun .encrypt .cbc s.keyBuf s.inBuf s.iv = .ok o :=
  ⟨ready k0 [] 0, hexText 32 0x954f64f2e4e86e9eee82d20216684899, rfl, rfl, rfl, by decide +kernel⟩
theorem witness_AesCbcEncResult_error : ∃ (s : State) (e : Err), s.busy = false ∧ s.cfg.hasCbc = true ∧
    s.ovf = false ∧ aesRun .encrypt .cbc s.keyBuf s.inBuf s.iv = .error e :=
  ⟨ready k0 [0x30] 0, .encoding, rfl, rfl, rfl, by decide +kernel⟩

theorem witness_AesCbcDecResult_ovf :
    ((ready k0 [] 0).setOvf true).busy = false ∧ ((ready k0 [] 0).setOvf true).cfg.hasCbc = true ∧
    ((ready k0 [] 0).setOvf true).ovf = true := by decide
/-- V31 back: the empty message. -/
theorem witness_AesCbcDecResult_ok : ∃ (s : State) (o : List Byte), s.busy = false ∧ s.cfg.hasCbc = true ∧
    s.ovf = false ∧ aesRun .decrypt .cbc s.keyBuf s.inBuf s.iv = .ok o :=
  ⟨ready k0 (hexText 32 0x954f64f2e4e86e9eee82d20216684899) 0, [], rfl, rfl, rfl, by decide +kernel⟩
/-- V55: no input. -/
theorem witness_AesCbcDecResult_error : ∃ (s : State) (e : Err), s.busy = false ∧ s.cfg.hasCbc = true ∧
    s.ovf = false ∧ aesRun .decrypt .cbc s.keyBuf s.inBuf s.iv = .error e :=
  ⟨ready k0 [] 0, .padding, rfl, rfl, rfl, by decide +kernel⟩

theorem witness_CompletionStep :
    (running [.engine]).busy = true ∧ (running [.engine]).pending = [.engine] ∧
    (finishedShift [.engine]).busy = false ∧ (finishedShift [.engine]).pending = [.engine] := by decide

/-- V66, a shift command's InvalidShift, V55. -/
theorem witness_ErrorCodesPerCommand_ends :
    State.reset.endsWith .aesEcbEnc (some .keyLength) ∧
    State.reset.endsWith (.shiftDec true true) (some .invalidShift) ∧
    (ready k0 [] 0).endsWith .aesCbcDec (some .padding) :=
  ⟨⟨rfl, rfl, _, rfl, rfl, rfl⟩, ⟨rfl, rfl, _, rfl, rfl, rfl⟩, ⟨rfl, rfl, _, rfl, rfl, by decide +kernel⟩⟩
theorem witness_ErrorCodesPerCommand_idle : State.reset.busy = false := by decide
theorem witness_ErrorCodesPerCommand_illegal : ∃ s t : State, step s = .next t ∧ t.err = some .illegalCommand :=
  ⟨fresh [writeTurn Config.default .ctrl 3], _, rfl, rfl⟩

theorem witness_EveryOperationCompletes :
    (running [.micro, .read 0x04 4]).busy = true ∧
    (∀ t ∈ (running [.micro, .read 0x04 4]).pending,
      t.ok (running [.micro, .read 0x04 4]).cfg = true ∧ t ≠ .reset) := by decide

theorem witness_RunningOperationIsIsolated : ∃ (s : State) (accesses rest : List Turn), s.Inv ∧ s.busy = true ∧
    (∀ t ∈ accesses, t.reaches s.cfg = true ∨ t = .micro) ∧ s.pending = accesses ++ .engine :: rest :=
  ⟨running [.write 0x3C 4 1, .micro, .read 0x30 4, .engine], [.write 0x3C 4 1, .micro, .read 0x30 4], [],
    running_inv _, rfl, by decide, rfl⟩

theorem witness_BothOrdersOfARaceAdmitted_read : ∃ (s : State) (rest : List Turn), s.busy = true ∧
    s.pending = readTurn s.cfg .status :: .engine :: rest :=
  ⟨running [readTurn Config.default .status, .engine], [], rfl, rfl⟩
theorem witness_BothOrdersOfARaceAdmitted_engine : ∃ (s : State) (rest : List Turn), s.busy = true ∧
    s.pending = .engine :: readTurn s.cfg .status :: rest :=
  ⟨running [.engine, readTurn Config.default .status], [], rfl, rfl⟩

theorem witness_MicroStepIsUnobservable : (running [.micro]).pending = [.micro] := by decide

theorem witness_ReferenceSequenceRefinesExec :
    { Work.reset with seq := .validate, out := [1], err := some .padding }.seq = .validate ∧
    0 < referenceSteps ⟨.shift, .encrypt, .ecb, true, false⟩ (running []).operands := by decide

/-- A shift command on states that differ in the key. -/
theorem witness_UnreadOperandsHaveNoInfluence_shift : ∃ s s' : State, s ≠ s' ∧ s.curCmd = s'.curCmd ∧ s.ovf = s'.ovf ∧
    s.inBuf = s'.inBuf ∧ (s.curCmd.alg = .shift → s.shift = s'.shift) ∧ (s.curCmd.alg = .aes → s.keyBuf = s'.keyBuf) ∧
    (s.curCmd.alg = .aes → s.curCmd.mode = .cbc → s.iv = s'.iv) :=
  ⟨running [], (running []).setKeyBuf [0x30], by decide⟩
/-- An ECB command on states that differ in SHIFT and the IV. -/
theorem witness_UnreadOperandsHaveNoInfluence_ecb : ∃ s s' : State, s ≠ s' ∧ s.curCmd = s'.curCmd ∧ s.ovf = s'.ovf ∧
    s.inBuf = s'.inBuf ∧ (s.curCmd.alg = .shift → s.shift = s'.shift) ∧ (s.curCmd.alg = .aes → s.keyBuf = s'.keyBuf) ∧
    (s.curCmd.alg = .aes → s.curCmd.mode = .cbc → s.iv = s'.iv) :=
  ⟨after .aesEcbEnc (ready k0 p0 0), after .aesEcbEnc (withIv (ready k0 p0 5)), by decide +kernel⟩

theorem witness_RepeatedCommandGivesSameResult :
    Instr.run? .aesEcbEnc = some ⟨.aes, .encrypt, .ecb, false, false⟩ ∧
    Instr.wf State.reset.cfg.hasCbc .aesEcbEnc = true ∧ State.reset.busy = false := by decide

theorem witness_OnlyWritersOfOperandState :
    ∃ t, step (fresh [writeTurn Config.default .shift 5]) = .next t ∧ t.shift = 5 := ⟨_, rfl, rfl⟩

theorem witness_OnlyWritersOfResultBuffers :
    ∃ t, step (running [.engine]) = .next t ∧ t.traceBuf ≠ [] :=
  ⟨stepped (running [.engine]), rfl, by decide +kernel⟩

/-- One step for each clause: BUSY up and down, DONE up and down, OVF up and down, ERR changed. -/
theorem witness_FlagsChangeOnlyByTheirEvents :
    (∃ s t : State, step s = .next t ∧ s.busy = false ∧ t.busy = true) ∧
    (∃ s t : State, step s = .next t ∧ s.busy = true ∧ t.busy = false) ∧
    (∃ s t : State, step s = .next t ∧ s.done = false ∧ t.done = true) ∧
    (∃ s t : State, step s = .next t ∧ s.done = true ∧ t.done = false) ∧
    (∃ s t : State, step s = .next t ∧ s.ovf = false ∧ t.ovf = true) ∧
    (∃ s t : State, step s = .next t ∧ s.ovf = true ∧ t.ovf = false) ∧
    (∃ s t : State, step s = .next t ∧ t.err ≠ s.err) :=
  ⟨⟨fresh [writeTurn Config.default .ctrl 1], _, rfl, rfl, rfl⟩, ⟨running [.reset], _, rfl, rfl, rfl⟩,
    ⟨fresh [writeTurn Config.default .ctrl 3], _, rfl, rfl, rfl⟩,
    ⟨finishedShift [writeTurn Config.default .ctrl 2], _, rfl, rfl, rfl⟩,
    ⟨small 32 [writeTurn ⟨32, true, 0⟩ .inPush 0], _, rfl, rfl, rfl⟩,
    ⟨(fresh [.reset]).setOvf true, _, rfl, rfl, rfl⟩,
    ⟨fresh [writeTurn Config.default .ctrl 3], _, rfl, by decide⟩⟩

end Sys2Proof.Tests
end

/-! PROOF. The statements of `10_state.md`: what every step keeps, and which events write each piece of state. -/

namespace Sys2Proof.Machine

/-! ### Lengths of results -/

theorem hexEncode_length (bs : List Byte) : (hexEncode bs).length = 2 * bs.length := by
  induction bs with
  | nil => rfl
  | cons b bs ih => simp only [hexEncode, List.length_cons, ih]; omega

theorem hexDecode_length : ∀ {cs bs : List Byte}, hexDecode cs = some bs → cs.length = 2 * bs.length
  | [], _, h => by cases h; rfl
  | [_], _, h => by cases h
  | hi :: lo :: cs, _, h => by
    simp only [hexDecode] at h
    split at h
    · next hcs =>
      cases h
      have ih := hexDecode_length hcs
      simp only [List.length_cons, ih]
      omega
    · cases h

theorem takeBlocks_length (n : Nat) (bs : List Byte) : (takeBlocks n bs).length = n := by
  induction n generalizing bs with
  | zero => rfl
  | succ n ih => simp [takeBlocks, ih]

@[simp] theorem toBlocks_length (bs : List Byte) : (toBlocks bs).length = bs.length / 16 := takeBlocks_length _ _

@[simp] theorem joinBlocks_length (bs : List Block) : (joinBlocks bs).length = 16 * bs.length := by
  induction bs with
  | nil => rfl
  | cons b bs ih =>
    have hcons : joinBlocks (b :: bs) = b.toBytes ++ joinBlocks bs := rfl
    rw [hcons, List.length_append, ih]
    simp only [Block.toBytes, List.length_cons, List.length_nil]
    omega

@[simp] theorem cbcEncryptBlocks_length (w : List Word) (prev : Block) (bs : List Block) :
    (cbcEncryptBlocks w prev bs).length = bs.length := by
  induction bs generalizing prev with
  | nil => rfl
  | cons b bs ih => simp [cbcEncryptBlocks, ih]

@[simp] theorem cbcDecryptBlocks_length (w : List Word) (prev : Block) (bs : List Block) :
    (cbcDecryptBlocks w prev bs).length = bs.length := by
  induction bs generalizing prev with
  | nil => rfl
  | cons b bs ih => simp [cbcDecryptBlocks, ih]

theorem pad_length (bs : List Byte) : (pad bs).length = bs.length + padCount bs := by simp [pad]

theorem unpad_length_le {bs r : List Byte} (h : unpad bs = some r) : r.length ≤ bs.length := by
  unfold unpad at h
  split at h
  · cases h
  · split at h
    · cases h
    · split at h
      · cases h; exact List.length_take_le' _ _
      · cases h

theorem checkData_length {dir : Dir} {mode : Mode} {ic db : List Byte} (h : checkData dir mode ic = .ok db) :
    ic.length = 2 * db.length := by
  unfold checkData at h
  split at h
  · cases h
  · next hdec =>
    split at h
    · cases h
    · split at h
      · cases h
      · cases h; exact hexDecode_length hdec

/-- Padding adds at most one Block (R141), and no other mode lengthens the data. -/
theorem aesCipher_length_le {dir : Dir} {mode : Mode} {w : List Word} {db r : List Byte} {iv : Block}
    (h : aesCipher dir mode w db iv = some r) : r.length ≤ db.length + 16 := by
  cases mode <;> cases dir
  case cbc.encrypt =>
    cases h
    simp only [cbcEncrypt, joinBlocks_length, cbcEncryptBlocks_length, toBlocks_length, pad_length, padCount]
    omega
  case cbc.decrypt =>
    have hle := unpad_length_le h
    simp only [cbcDecrypt, joinBlocks_length, cbcDecryptBlocks_length, toBlocks_length] at hle
    omega
  all_goals
    cases h
    simp only [ecbEncrypt, ecbDecrypt, joinBlocks_length, List.length_map, toBlocks_length]
    omega

theorem aesRun_length_le {dir : Dir} {mode : Mode} {kc ic out : List Byte} {iv : Block}
    (h : aesRun dir mode kc ic iv = .ok out) : out.length ≤ ic.length + 32 := by
  unfold aesRun aesCheck at h
  cases hk : checkKey kc with
  | error e => simp [hk] at h
  | ok key =>
    cases hd : checkData dir mode ic with
    | error e => simp [hk, hd] at h
    | ok db =>
      cases hc : aesCipher dir mode (keyExpand key) db iv with
      | none => simp [hk, hd, hc] at h
      | some r =>
        simp only [hk, hd, hc, Except.ok.injEq] at h
        have hin := checkData_length hd
        have hout := aesCipher_length_le hc
        rw [← h, hexEncode_length]
        omega

@[simp] theorem shiftTransform_length (text : List Byte) (s : Word) (dir : Dir) :
    (shiftTransform text s dir).length = text.length := by simp [shiftTransform]

theorem shiftTrace_length_le (text : List Byte) (s : Word) (dir : Dir) :
    (shiftTrace text s dir).length ≤ text.length := by
  simpa [shiftTrace] using List.length_filterMap_le (fun p => traceEntry? (effShift s dir) p.1 p.2) text.zipIdx

/-! ### What a successful operation commits -/

/-- The two ways `Exec` succeeds (R171). -/
theorem engineResult_ok {cmd : Cmd} {ops : Operands} {out : List Byte} {trace : List TraceEntry}
    (h : engineResult cmd ops = .ok out trace) :
    (cmd.alg = .shift ∧ out = shiftTransform ops.text ops.shift cmd.dir ∧
      trace = if cmd.t then shiftTrace ops.text ops.shift cmd.dir else []) ∨
    (cmd.alg = .aes ∧ aesRun cmd.dir cmd.mode ops.key ops.text ops.iv = .ok out ∧ trace = []) := by
  unfold engineResult at h
  split at h
  · cases h
  · split at h
    · next halg =>
      unfold shiftResult at h
      split at h
      · cases h
      · cases h; exact .inl ⟨halg, rfl, rfl⟩
    · next halg =>
      unfold aesResult at h
      split at h
      · next hrun => cases h; exact .inr ⟨halg, hrun, rfl⟩
      · cases h

section
variable {cmd : Cmd} {ops : Operands} {out : List Byte} {trace : List TraceEntry}

theorem engineResult_out_length_le (h : engineResult cmd ops = .ok out trace) : out.length ≤ ops.text.length + 32 := by
  obtain ⟨_, rfl, _⟩ | ⟨_, hrun, _⟩ := engineResult_ok h
  · simp
  · exact aesRun_length_le hrun

theorem engineResult_trace_length_le (h : engineResult cmd ops = .ok out trace) : trace.length ≤ ops.text.length := by
  obtain ⟨_, _, rfl⟩ | ⟨_, _, rfl⟩ := engineResult_ok h
  · split
    · exact shiftTrace_length_le ..
    · simp
  · simp

/-- Only a shift command with T = 1 produces a trace (R22). -/
theorem engineResult_trace_of_shift (h : engineResult cmd ops = .ok out trace) (hne : trace ≠ []) :
    cmd.alg = .shift ∧ cmd.t = true := by
  obtain ⟨halg, _, rfl⟩ | ⟨_, _, rfl⟩ := engineResult_ok h
  · exact ⟨halg, by_contra fun ht => hne (if_neg ht)⟩
  · exact absurd rfl hne

end

/-- The completion step commits a result that `Exec` gives, or delivers an error (R172). -/
theorem complete_cases (s : State) :
    (∃ out trace, engineResult s.curCmd s.operands = .ok out trace ∧ complete s = commit out trace s) ∨
    (∃ e, complete s = deliver e s) := by
  obtain ⟨out, trace, hr, h⟩ | ⟨e, _, h⟩ := conclude_cases (engineResult s.curCmd s.operands) s
  · exact .inl ⟨out, trace, hr, h⟩
  · exact .inr ⟨e, h⟩

/-- The frame of the completion step: it writes the result state and the flags that report it (R172). -/
theorem complete_frame (s : State) : ∃ err out trace, complete s = { s with
    phase := .idle, done := true, err := err, outBuf := out, outRp := 0, traceBuf := trace, traceRp := 0 } := by
  obtain ⟨out, trace, _, h⟩ | ⟨e, h⟩ := complete_cases s
  · exact ⟨none, out, trace, h⟩
  · exact ⟨some e, [], [], h⟩

theorem complete_traceBuf (s : State) :
    (complete s).traceBuf = [] ∨ s.curCmd.alg = .shift ∧ s.curCmd.t = true := by
  obtain ⟨out, trace, hr, h⟩ | ⟨e, h⟩ := complete_cases s <;> rw [h]
  · exact (Classical.em (trace = [])).imp_right (engineResult_trace_of_shift hr)
  · exact .inl rfl

/-! ### Host accesses: what they write and what they leave -/

/-- SHIFT and the IV: the registers of the operand state that hold what is written to them (R10). -/
def operandRegisters : List Reg := [.shift, .iv0, .iv1, .iv2, .iv3]

theorem mem_operandRegisters {r : Reg} :
    r ∈ operandRegisters ↔ r = .shift ∨ r = .iv0 ∨ r = .iv1 ∨ r = .iv2 ∨ r = .iv3 := by simp [operandRegisters]

/-- What a write to a register can do, CTRL apart: a write to an operand register, a push that fits or overflows, or
nothing (R43, R46 to R48). -/
theorem writeEffect_cases (r : Reg) (d : Word) (s : State) :
    r ∈ operandRegisters ∨
    (r = .keyPush ∧ s.keyBuf.length < 64 ∧ writeEffect r d s = s.setKeyBuf (s.keyBuf ++ [pushedChar d])) ∨
    (r = .keyPush ∧ 64 ≤ s.keyBuf.length ∧ writeEffect r d s = s.setOvf true) ∨
    (r = .inPush ∧ s.inBuf.length < s.cfg.inDepth ∧ writeEffect r d s = s.setInBuf (s.inBuf ++ [pushedChar d])) ∨
    (r = .inPush ∧ s.cfg.inDepth ≤ s.inBuf.length ∧ writeEffect r d s = s.setOvf true) ∨
    writeEffect r d s = s := by
  cases r
  case shift | iv0 | iv1 | iv2 | iv3 => exact .inl (by decide)
  case keyPush =>
    obtain ⟨hlt, h⟩ | ⟨hfull, h⟩ := pushKey_cases (pushedChar d) s
    · exact .inr (.inl ⟨rfl, hlt, h⟩)
    · exact .inr (.inr (.inl ⟨rfl, hfull, h⟩))
  case inPush =>
    obtain ⟨hlt, h⟩ | ⟨hfull, h⟩ := pushIn_cases (pushedChar d) s
    · exact .inr (.inr (.inr (.inl ⟨rfl, hlt, h⟩)))
    · exact .inr (.inr (.inr (.inr (.inl ⟨rfl, hfull, h⟩))))
  all_goals exact .inr (.inr (.inr (.inr (.inr rfl))))

/-- A write to an operand register writes such registers only (R46). -/
theorem operandWrite_frame {r : Reg} (hr : r ∈ operandRegisters) (d : Word) (s : State) :
    ∃ sh v0 v1 v2 v3, writeEffect r d s = { s with shift := sh, iv0 := v0, iv1 := v1, iv2 := v2, iv3 := v3 } := by
  obtain rfl | rfl | rfl | rfl | rfl := mem_operandRegisters.mp hr <;> exact ⟨_, _, _, _, _, rfl⟩

theorem readValue_operand_congr {r : Reg} (hr : r ∈ operandRegisters) {s t : State} (hs : t.shift = s.shift)
    (h0 : t.iv0 = s.iv0) (h1 : t.iv1 = s.iv1) (h2 : t.iv2 = s.iv2) (h3 : t.iv3 = s.iv3) :
    readValue r t = readValue r s := by
  obtain rfl | rfl | rfl | rfl | rfl := mem_operandRegisters.mp hr <;> assumption

/-- An operand register reads what was written to it last (R46). -/
theorem readValue_operandWrite {r r' : Reg} (hr : r ∈ operandRegisters) (hr' : r' ∈ operandRegisters) (d : Word)
    (s : State) : readValue r (writeEffect r' d s) = if r = r' then d else readValue r s := by
  obtain rfl | rfl | rfl | rfl | rfl := mem_operandRegisters.mp hr' <;>
    obtain rfl | rfl | rfl | rfl | rfl := mem_operandRegisters.mp hr <;> rfl

/-- A read moves at most a read pointer (R44, R53). -/
theorem hostRead_frame (r : Reg) (s : State) : ∃ orp trp d, hostRead r s = { s with
    outRp := orp, traceRp := trp, readData := d } := by
  unfold hostRead
  obtain h | ⟨_, h⟩ | ⟨_, h⟩ := readEffect_cases r s <;> rw [h] <;> exact ⟨_, _, _, rfl⟩

/-! ### The effect of one step, by event -/

/-- What a step from `s` can leave, `ts` being the turns still to come: each effect with the event that causes it. -/
inductive StepEffect (s : State) (ts : List Turn) : State → Prop
  /-- The completion step (R172). -/
  | complete : s.completes → StepEffect s ts (complete (s.setPending ts))
  /-- Reset (R205). -/
  | reset : s.resets → StepEffect s ts (applyReset (s.setPending ts))
  /-- The acceptance of a RUN command (R170). -/
  | run (cmd : Cmd) : s.runs → StepEffect s ts (accept cmd (s.setPending ts))
  /-- CLR (R175). -/
  | clear : s.clears → StepEffect s ts (clearRequest (s.setPending ts))
  /-- An illegal command (R176). -/
  | illegal : s.illegal → StepEffect s ts (illegalCommand (s.setPending ts))
  /-- A write to SHIFT or an IV register while BUSY = 0 (R46). -/
  | operand (r : Reg) (d : Word) : s.writes r d → r ∈ operandRegisters →
      StepEffect s ts (writeEffect r d (s.setPending ts))
  /-- A push into the key buffer (R47). -/
  | keyPush (d : Word) : s.writes .keyPush d → s.keyBuf.length < 64 →
      StepEffect s ts ((s.setPending ts).setKeyBuf (s.keyBuf ++ [pushedChar d]))
  /-- A push into the input buffer (R48). -/
  | inPush (d : Word) : s.writes .inPush d → s.inBuf.length < s.cfg.inDepth →
      StepEffect s ts ((s.setPending ts).setInBuf (s.inBuf ++ [pushedChar d]))
  /-- A push into a full key buffer (R47). -/
  | keyOverflow (d : Word) : s.writes .keyPush d → 64 ≤ s.keyBuf.length →
      StepEffect s ts ((s.setPending ts).setOvf true)
  /-- A push into a full input buffer (R48). -/
  | inOverflow (d : Word) : s.writes .inPush d → s.cfg.inDepth ≤ s.inBuf.length →
      StepEffect s ts ((s.setPending ts).setOvf true)
  /-- A read (R44). -/
  | read (r : Reg) : StepEffect s ts (hostRead r (s.setPending ts))
  /-- A micro-step (R56). -/
  | micro (wk : Work) : StepEffect s ts ((s.setPending ts).setWork wk)
  /-- NOP, a write dropped while BUSY = 1 or to a read-only register, the engine's turn while BUSY = 0 (R43, R45, R166,
  R174). -/
  | none : StepEffect s ts (s.setPending ts)

/-- The engine's turn is the completion step or nothing (R166). -/
theorem stepEffect_engineTurn {s : State} {ts : List Turn} (h : s.pending = [] ∨ s.pending.head? = some .engine) :
    StepEffect s ts (engineTurn (s.setPending ts)) := by
  cases hb : s.busy
  · rw [engineTurn_idle (by simpa using hb)]; exact .none
  · rw [engineTurn_busy (by simpa using hb)]; exact .complete ⟨hb, h⟩

/-- The effect of a command word that reaches CTRL while BUSY = 0 (R168). -/
theorem stepEffect_command {s t : State} {c : Word} {ts : List Turn} (hw : s.writes .ctrl c)
    (h : command c (s.setPending ts) = .next t) : StepEffect s ts t := by
  obtain ⟨hb, _⟩ | ⟨_, ⟨_, h'⟩ | ⟨hd, h'⟩ | ⟨i, cmd, hd, hr, h'⟩ | ⟨hd, h'⟩⟩ := command_cases c (s.setPending ts)
  · exact absurd (hw.1.symm.trans hb) (by decide)
  all_goals
    rw [h'] at h
    cases h
  · exact .none
  · exact .clear ⟨c, hw, hd⟩
  · exact .run cmd ⟨c, i, cmd, hw, hd, hr⟩
  · exact .illegal ⟨c, hw, hd⟩

/-- The effect of a write to a register other than CTRL while BUSY = 0 (R43, R46 to R48). -/
theorem stepEffect_write {s : State} {r : Reg} {d : Word} (ts : List Turn) (hw : s.writes r d) :
    StepEffect s ts (writeEffect r d (s.setPending ts)) := by
  obtain hr | ⟨rfl, hlt, h⟩ | ⟨rfl, hfull, h⟩ | ⟨rfl, hlt, h⟩ | ⟨rfl, hfull, h⟩ | h :=
    writeEffect_cases r d (s.setPending ts)
  · exact .operand r d hw hr
  all_goals rw [h]
  · exact .keyPush d hw hlt
  · exact .keyOverflow d hw hfull
  · exact .inPush d hw hlt
  · exact .inOverflow d hw hfull
  · exact .none

/-- Every step that answers a next state has one of the effects. -/
theorem step_effect {s t : State} (h : step s = .next t) : ∃ ts, StepEffect s ts t := by
  obtain ⟨hp, rfl⟩ | ⟨ts, ⟨hp, rfl⟩ | ⟨hp, rfl⟩ | ⟨hp, rfl⟩ | ⟨r, _, rfl⟩ | ⟨_, _, _, _, rfl⟩ |
    ⟨r, d, hp, hb, _, rfl⟩ | ⟨c, hp, hb, hcmd⟩⟩ := step_cases h
  · exact ⟨s.pending, by simpa using stepEffect_engineTurn (ts := s.pending) (.inl hp)⟩
  · exact ⟨ts, stepEffect_engineTurn (.inr (by simp [hp]))⟩
  · obtain ⟨wk, hwk⟩ := microTurn_eq (s.setPending ts)
    exact ⟨ts, hwk ▸ .micro wk⟩
  · exact ⟨ts, .reset (by simp [State.resets, hp])⟩
  · exact ⟨ts, .read r⟩
  · exact ⟨ts, .none⟩
  · exact ⟨ts, stepEffect_write ts ⟨hb, by simp [hp]⟩⟩
  · exact ⟨ts, stepEffect_command ⟨hb, by simp [hp]⟩ hcmd⟩

/-! ### The invariants of R30 -/

theorem inv_resetOf {cfg : Config} (h : cfg.wf = true) : (State.resetOf cfg).Inv where
  cfg_wf := h
  key_fits := Nat.zero_le _
  in_fits := Nat.zero_le _
  out_fits := Nat.zero_le _
  trace_fits := Nat.zero_le _
  outRp_le := Nat.zero_le _
  traceRp_le := Nat.zero_le _
  busy_empty := fun hb => nomatch hb
  err_empty := fun _ => ⟨rfl, rfl⟩
  not_done_no_err := fun _ => rfl
  trace_of_shift := fun hne => absurd rfl hne

section
variable {s : State} (h : s.Inv)
include h

theorem inv_setPending (ts : List Turn) : (s.setPending ts).Inv := { h with }
theorem inv_setWork (wk : Work) : (s.setWork wk).Inv := { h with }
theorem inv_setReadData (d : Word) : (s.setReadData d).Inv := { h with }
theorem inv_setOvf (b : Bool) : (s.setOvf b).Inv := { h with }

theorem inv_setKeyBuf {cs : List Byte} (hcs : cs.length ≤ 64) : (s.setKeyBuf cs).Inv := { h with key_fits := hcs }
theorem inv_setInBuf {cs : List Byte} (hcs : cs.length ≤ s.cfg.inDepth) : (s.setInBuf cs).Inv :=
  { h with in_fits := hcs }

theorem inv_operandWrite {r : Reg} (hr : r ∈ operandRegisters) (d : Word) : (writeEffect r d s).Inv := by
  obtain ⟨_, _, _, _, _, h'⟩ := operandWrite_frame hr d s
  rw [h']
  exact { h with }

theorem inv_hostRead (r : Reg) : (hostRead r s).Inv := by
  refine inv_setReadData ?_ _
  obtain h' | ⟨hlt, h'⟩ | ⟨hlt, h'⟩ := readEffect_cases r s <;> rw [h']
  · exact h
  · exact { h with outRp_le := hlt }
  · exact { h with traceRp_le := hlt }

/-- Emptying the result buffers keeps the invariants whatever is then reported, if a running block reports nothing and
an error comes with DONE (R30 (c) to (f)). -/
theorem inv_emptied {p : Phase} {d : Bool} {e : Option Err} (hrun : p = .running → d = false)
    (herr : d = false → e = none) : ((s.setResult [] []).setStatus p d e).Inv :=
  { h with
    out_fits := Nat.zero_le _
    trace_fits := Nat.zero_le _
    outRp_le := Nat.zero_le _
    traceRp_le := Nat.zero_le _
    busy_empty := fun hb => have hd := hrun ((busy_iff _).mp hb); ⟨hd, herr hd, rfl, rfl⟩
    err_empty := fun _ => ⟨rfl, rfl⟩
    not_done_no_err := herr
    trace_of_shift := fun hne => absurd rfl hne }

theorem inv_accept (cmd : Cmd) : (accept cmd s).Inv :=
  { inv_emptied h (p := .running) (fun _ => rfl) (fun _ => rfl) with trace_of_shift := fun hne => absurd rfl hne }

theorem inv_clearRequest : (clearRequest s).Inv :=
  inv_setOvf (inv_emptied (inv_setInBuf (inv_setKeyBuf h (Nat.zero_le _)) (Nat.zero_le _))
    (fun _ => rfl) (fun _ => rfl)) false

theorem inv_deliver (e : Err) : (deliver e s).Inv :=
  inv_emptied h (fun hp => nomatch hp) (fun hd => nomatch hd)

theorem inv_commit {out : List Byte} {trace : List TraceEntry} (hout : out.length ≤ s.cfg.outDepth)
    (htrace : trace.length ≤ s.cfg.traceDepth) (hshift : trace ≠ [] → s.curCmd.alg = .shift ∧ s.curCmd.t = true) :
    (commit out trace s).Inv :=
  { h with
    out_fits := hout
    trace_fits := htrace
    outRp_le := Nat.zero_le _
    traceRp_le := Nat.zero_le _
    busy_empty := fun hb => nomatch hb
    err_empty := fun hne => absurd rfl hne
    not_done_no_err := fun _ => rfl
    trace_of_shift := hshift }

/-- The committed result fits, because it is no longer than the input allows (R21, R22). -/
theorem inv_complete : (complete s).Inv := by
  obtain ⟨out, trace, hr, h'⟩ | ⟨e, h'⟩ := complete_cases s <;> rw [h']
  · have hin : s.operands.text.length ≤ s.cfg.inDepth := h.in_fits
    exact inv_commit h ((engineResult_out_length_le hr).trans (Nat.add_le_add_right hin 32))
      ((engineResult_trace_length_le hr).trans hin) (engineResult_trace_of_shift hr)
  · exact inv_deliver h e

theorem inv_applyReset : (applyReset s).Inv :=
  inv_setReadData (inv_setPending (inv_resetOf h.cfg_wf) _) _

theorem inv_stepEffect {ts : List Turn} {t : State} (he : StepEffect s ts t) : t.Inv := by
  have hu := inv_setPending h ts
  cases he with
  | complete _ => exact inv_complete hu
  | reset _ => exact inv_applyReset hu
  | run cmd _ => exact inv_accept hu cmd
  | clear _ => exact inv_clearRequest hu
  | illegal _ => exact inv_deliver hu _
  | operand r d _ hr => exact inv_operandWrite hu hr d
  | keyPush d _ hlt => exact inv_setKeyBuf hu (by simpa using hlt)
  | inPush d _ hlt => exact inv_setInBuf hu (by simpa using hlt)
  | keyOverflow | inOverflow => exact inv_setOvf hu true
  | read r => exact inv_hostRead hu r
  | micro wk => exact inv_setWork hu wk
  | none => exact hu

end

/-- What every step keeps holds of every state a run reaches. -/
theorem runSteps_invariant {P : State → Prop} (hstep : ∀ s t, P s → step s = .next t → P t) {k : Nat} {s t : State}
    (hs : P s) (h : runSteps k s = .next t) : P t := by
  induction k generalizing s with
  | zero => rw [runSteps_zero] at h; cases h; exact hs
  | succ k ih =>
    rw [runSteps_succ] at h
    cases hst : step s with
    | next u => rw [hst] at h; exact ih (hstep s u hs hst) h
    | fault r => rw [hst] at h; cases h
    | refused r => rw [hst] at h; cases h

/-- Settles O10: each effect of a step keeps the invariants; the completion step does because a result is no longer than
the input allows. -/
theorem stepKeepsInvariants : Obligations.StepKeepsInvariants := by
  intro s t hs h
  obtain ⟨ts, he⟩ := step_effect h
  exact inv_stepEffect hs he

/-- Settles O9: nothing has been pushed, computed or reported. -/
theorem invariantsAtReset : Obligations.InvariantsAtReset :=
  ⟨fun _ hcfg => inv_resetOf hcfg, inv_resetOf (by decide)⟩

/-- Settles O11, by induction on the number of steps from the reset state. -/
theorem reachableStatesHaveInvariants : Obligations.ReachableStatesHaveInvariants := fun _ turns _ _ hcfg h =>
  runSteps_invariant stepKeepsInvariants (inv_setPending (inv_resetOf hcfg) turns) h

/-! ### Parameters, reset values, micro-steps -/

theorem stepEffect_cfg {s t : State} {ts : List Turn} (he : StepEffect s ts t) : t.cfg = s.cfg := by
  cases he with
  | complete => obtain ⟨_, _, _, h⟩ := complete_frame (s.setPending ts); rw [h]; rfl
  | operand r d _ hr => obtain ⟨_, _, _, _, _, h⟩ := operandWrite_frame hr d (s.setPending ts); rw [h]; rfl
  | read r => obtain ⟨_, _, _, h⟩ := hostRead_frame r (s.setPending ts); rw [h]; rfl
  | clear => rw [clearRequest_eq]; rfl
  | reset | run | illegal | keyPush | inPush | keyOverflow | inOverflow | micro | none => rfl

/-- Settles O12: CAP is read from the parameters alone. -/
theorem parametersNeverChange : Obligations.ParametersNeverChange := by
  intro s t h
  obtain ⟨ts, he⟩ := step_effect h
  have hcfg := stepEffect_cfg he
  exact ⟨hcfg, congrArg capWord hcfg⟩

/-- Settles O6: the reset state is idle, so neither of the engine's turns does anything. -/
theorem resetValues : Obligations.ResetValues := by
  intro cfg
  have hstatus : statusWord State.reset = 0 := by decide
  exact ⟨rfl, hstatus, rfl, rfl, rfl, rfl, rfl, rfl, rfl, rfl, rfl, rfl, rfl, rfl,
    engineTurn_idle rfl, microTurn_idle rfl⟩

/-- Settles O54: no register reads the working storage or the turns to come. -/
theorem microStepIsUnobservable : Obligations.MicroStepIsUnobservable := by
  intro s rest hp
  obtain ⟨wk, hwk⟩ := microTurn_eq (s.setPending rest)
  refine ⟨wk, (step_micro hp).trans (congrArg _ hwk), fun r => ?_⟩
  cases r <;> rfl

/-! ### Which events write the operand state -/

section
variable {s t : State} {ts : List Turn} (he : StepEffect s ts t)
include he

theorem stepEffect_operandRegister {r : Reg} (hr : r ∈ operandRegisters) :
    readValue r t = readValue r s ∨ s.resets ∨ ∃ d, s.writes r d ∧ readValue r t = d := by
  cases he with
  | reset hres => exact .inr (.inl hres)
  | operand r' d hw hr' =>
    have hread := readValue_operandWrite hr hr' d (s.setPending ts)
    split at hread
    · next heq => subst heq; exact .inr (.inr ⟨d, hw, hread⟩)
    · exact .inl (hread.trans (readValue_operand_congr hr rfl rfl rfl rfl rfl))
  | complete =>
    obtain ⟨_, _, _, h⟩ := complete_frame (s.setPending ts)
    rw [h]
    exact .inl (readValue_operand_congr hr rfl rfl rfl rfl rfl)
  | read r' =>
    obtain ⟨_, _, _, h⟩ := hostRead_frame r' (s.setPending ts)
    rw [h]
    exact .inl (readValue_operand_congr hr rfl rfl rfl rfl rfl)
  | clear => rw [clearRequest_eq]; exact .inl (readValue_operand_congr hr rfl rfl rfl rfl rfl)
  | run | illegal | keyPush | inPush | keyOverflow | inOverflow | micro | none =>
    exact .inl (readValue_operand_congr hr rfl rfl rfl rfl rfl)

theorem stepEffect_keyBuf : t.keyBuf = s.keyBuf ∨ s.resets ∨ s.clears ∨
    ∃ d, s.writes .keyPush d ∧ t.keyBuf = s.keyBuf ++ [pushedChar d] := by
  cases he with
  | reset hres => exact .inr (.inl hres)
  | clear hclr => exact .inr (.inr (.inl hclr))
  | keyPush d hw => exact .inr (.inr (.inr ⟨d, hw, rfl⟩))
  | complete => obtain ⟨_, _, _, h⟩ := complete_frame (s.setPending ts); rw [h]; exact .inl rfl
  | operand r d _ hr => obtain ⟨_, _, _, _, _, h⟩ := operandWrite_frame hr d (s.setPending ts); rw [h]; exact .inl rfl
  | read r => obtain ⟨_, _, _, h⟩ := hostRead_frame r (s.setPending ts); rw [h]; exact .inl rfl
  | run | illegal | inPush | keyOverflow | inOverflow | micro | none => exact .inl rfl

theorem stepEffect_inBuf : t.inBuf = s.inBuf ∨ s.resets ∨ s.clears ∨
    ∃ d, s.writes .inPush d ∧ t.inBuf = s.inBuf ++ [pushedChar d] := by
  cases he with
  | reset hres => exact .inr (.inl hres)
  | clear hclr => exact .inr (.inr (.inl hclr))
  | inPush d hw => exact .inr (.inr (.inr ⟨d, hw, rfl⟩))
  | complete => obtain ⟨_, _, _, h⟩ := complete_frame (s.setPending ts); rw [h]; exact .inl rfl
  | operand r d _ hr => obtain ⟨_, _, _, _, _, h⟩ := operandWrite_frame hr d (s.setPending ts); rw [h]; exact .inl rfl
  | read r => obtain ⟨_, _, _, h⟩ := hostRead_frame r (s.setPending ts); rw [h]; exact .inl rfl
  | run | illegal | keyPush | keyOverflow | inOverflow | micro | none => exact .inl rfl

/-! ### Which events write the result buffers and the flags -/

/-- The result buffers are kept, emptied by their four events, or the completion step's, whose trace is empty but for a
shift command with T = 1 (R21, R22). -/
theorem stepEffect_result : (t.outBuf = s.outBuf ∧ t.traceBuf = s.traceBuf) ∨
    (t.outBuf = [] ∧ t.traceBuf = [] ∧ (s.runs ∨ s.illegal ∨ s.clears ∨ s.resets)) ∨
    (s.completes ∧ (t.traceBuf = [] ∨ s.curCmd.alg = .shift ∧ s.curCmd.t = true)) := by
  cases he with
  | complete hc => exact .inr (.inr ⟨hc, complete_traceBuf (s.setPending ts)⟩)
  | run _ hrun => exact .inr (.inl ⟨rfl, rfl, .inl hrun⟩)
  | illegal hill => exact .inr (.inl ⟨rfl, rfl, .inr (.inl hill)⟩)
  | clear hclr => exact .inr (.inl ⟨rfl, rfl, .inr (.inr (.inl hclr))⟩)
  | reset hres => exact .inr (.inl ⟨rfl, rfl, .inr (.inr (.inr hres))⟩)
  | operand r d _ hr =>
    obtain ⟨_, _, _, _, _, h⟩ := operandWrite_frame hr d (s.setPending ts); rw [h]; exact .inl ⟨rfl, rfl⟩
  | read r => obtain ⟨_, _, _, h⟩ := hostRead_frame r (s.setPending ts); rw [h]; exact .inl ⟨rfl, rfl⟩
  | keyPush | inPush | keyOverflow | inOverflow | micro | none => exact .inl ⟨rfl, rfl⟩

theorem stepEffect_busy : t.busy = s.busy ∨ (t.busy = true ∧ s.runs) ∨
    (t.busy = false ∧ (s.completes ∨ s.resets)) := by
  cases he with
  | complete hc => exact .inr (.inr ⟨complete_busy _, .inl hc⟩)
  | reset hres => exact .inr (.inr ⟨rfl, .inr hres⟩)
  | run _ hrun => exact .inr (.inl ⟨rfl, hrun⟩)
  | illegal hill =>
    obtain ⟨_, ⟨hb, _⟩, _⟩ := hill
    exact .inl hb.symm
  | operand r d _ hr => obtain ⟨_, _, _, _, _, h⟩ := operandWrite_frame hr d (s.setPending ts); rw [h]; exact .inl rfl
  | read r => obtain ⟨_, _, _, h⟩ := hostRead_frame r (s.setPending ts); rw [h]; exact .inl rfl
  | clear => exact .inl (clearRequest_busy _)
  | keyPush | inPush | keyOverflow | inOverflow | micro | none => exact .inl rfl

theorem stepEffect_done : t.done = s.done ∨ (t.done = true ∧ (s.completes ∨ s.illegal)) ∨
    (t.done = false ∧ (s.runs ∨ s.clears ∨ s.resets)) := by
  cases he with
  | complete hc =>
    obtain ⟨_, _, _, h⟩ := complete_frame (s.setPending ts); rw [h]; exact .inr (.inl ⟨rfl, .inl hc⟩)
  | illegal hill => exact .inr (.inl ⟨rfl, .inr hill⟩)
  | run _ hrun => exact .inr (.inr ⟨rfl, .inl hrun⟩)
  | clear hclr => exact .inr (.inr ⟨rfl, .inr (.inl hclr)⟩)
  | reset hres => exact .inr (.inr ⟨rfl, .inr (.inr hres)⟩)
  | operand r d _ hr => obtain ⟨_, _, _, _, _, h⟩ := operandWrite_frame hr d (s.setPending ts); rw [h]; exact .inl rfl
  | read r => obtain ⟨_, _, _, h⟩ := hostRead_frame r (s.setPending ts); rw [h]; exact .inl rfl
  | keyPush | inPush | keyOverflow | inOverflow | micro | none => exact .inl rfl

theorem stepEffect_ovf : t.ovf = s.ovf ∨
    (t.ovf = true ∧ ((∃ d, s.writes .keyPush d ∧ 64 ≤ s.keyBuf.length) ∨
      (∃ d, s.writes .inPush d ∧ s.cfg.inDepth ≤ s.inBuf.length))) ∨
    (t.ovf = false ∧ (s.clears ∨ s.resets)) := by
  cases he with
  | keyOverflow d hw hfull => exact .inr (.inl ⟨rfl, .inl ⟨d, hw, hfull⟩⟩)
  | inOverflow d hw hfull => exact .inr (.inl ⟨rfl, .inr ⟨d, hw, hfull⟩⟩)
  | clear hclr => exact .inr (.inr ⟨rfl, .inl hclr⟩)
  | reset hres => exact .inr (.inr ⟨rfl, .inr hres⟩)
  | complete => obtain ⟨_, _, _, h⟩ := complete_frame (s.setPending ts); rw [h]; exact .inl rfl
  | operand r d _ hr => obtain ⟨_, _, _, _, _, h⟩ := operandWrite_frame hr d (s.setPending ts); rw [h]; exact .inl rfl
  | read r => obtain ⟨_, _, _, h⟩ := hostRead_frame r (s.setPending ts); rw [h]; exact .inl rfl
  | run | illegal | keyPush | inPush | micro | none => exact .inl rfl

theorem stepEffect_err : t.err = s.err ∨ s.completes ∨ s.illegal ∨ s.runs ∨ s.clears ∨ s.resets := by
  cases he with
  | complete hc => exact .inr (.inl hc)
  | illegal hill => exact .inr (.inr (.inl hill))
  | run _ hrun => exact .inr (.inr (.inr (.inl hrun)))
  | clear hclr => exact .inr (.inr (.inr (.inr (.inl hclr))))
  | reset hres => exact .inr (.inr (.inr (.inr (.inr hres))))
  | operand r d _ hr => obtain ⟨_, _, _, _, _, h⟩ := operandWrite_frame hr d (s.setPending ts); rw [h]; exact .inl rfl
  | read r => obtain ⟨_, _, _, h⟩ := hostRead_frame r (s.setPending ts); rw [h]; exact .inl rfl
  | keyPush | inPush | keyOverflow | inOverflow | micro | none => exact .inl rfl

end

/-- A flag that is kept, set by `P` or cleared by `Q` rises only by `P` and falls only by `Q`. -/
theorem rises_and_falls {b b' : Bool} {P Q : Prop} (h : b' = b ∨ (b' = true ∧ P) ∨ (b' = false ∧ Q)) :
    (b = false → b' = true → P) ∧ (b = true → b' = false → Q) := by
  obtain rfl | ⟨rfl, hP⟩ | ⟨rfl, hQ⟩ := h
  · exact ⟨fun h0 h1 => absurd (h0.symm.trans h1) (by decide), fun h1 h0 => absurd (h0.symm.trans h1) (by decide)⟩
  · exact ⟨fun _ _ => hP, fun _ h0 => nomatch h0⟩
  · exact ⟨fun _ h1 => (nomatch h1), fun _ _ => hQ⟩

/-- Settles O58: SHIFT and the four IV registers are five instances of one fact about operand registers. -/
theorem onlyWritersOfOperandState : Obligations.OnlyWritersOfOperandState := by
  intro s t h
  obtain ⟨ts, he⟩ := step_effect h
  exact ⟨stepEffect_operandRegister (r := .shift) he (by decide), stepEffect_operandRegister (r := .iv0) he (by decide),
    stepEffect_operandRegister (r := .iv1) he (by decide), stepEffect_operandRegister (r := .iv2) he (by decide),
    stepEffect_operandRegister (r := .iv3) he (by decide), stepEffect_keyBuf he, stepEffect_inBuf he⟩

/-- Settles O59: both clauses are read off what a step can do to the result buffers. -/
theorem onlyWritersOfResultBuffers : Obligations.OnlyWritersOfResultBuffers := by
  intro s t h
  obtain ⟨ts, he⟩ := step_effect h
  obtain ⟨hout, htrace⟩ | ⟨hout, htrace, hev⟩ | ⟨hc, htrace⟩ := stepEffect_result he
  · exact ⟨.inl ⟨hout, htrace⟩, .inl htrace⟩
  · exact ⟨.inr (.inl ⟨hout, htrace, hev⟩), .inr (.inl htrace)⟩
  · exact ⟨.inr (.inr hc), .inr (htrace.imp_right fun hshift => ⟨hc, hshift⟩)⟩

/-- Settles O60: each flag is kept, or set or cleared by its events. -/
theorem flagsChangeOnlyByTheirEvents : Obligations.FlagsChangeOnlyByTheirEvents := by
  intro s t h
  obtain ⟨ts, he⟩ := step_effect h
  obtain ⟨hbusy, hidle⟩ := rises_and_falls (stepEffect_busy he)
  obtain ⟨hdone, hundone⟩ := rises_and_falls (stepEffect_done he)
  obtain ⟨hovf, hnoovf⟩ := rises_and_falls (stepEffect_ovf he)
  exact ⟨hbusy, hidle, hdone, hundone, hovf, hnoovf, fun hne => (stepEffect_err he).resolve_left hne⟩

end Sys2Proof.Machine

/-! PROOF. The statements of `20_memory.md`: the register window, the host's reads and writes, and the isolation of a
running operation from them. -/

namespace Sys2Proof.Machine

/-! ### The window (R41, R42) -/

theorem offset_mod_four (r : Reg) : r.offset % 4 = 0 := by cases r <;> rfl

/-- All 16 word offsets are assigned (R42). -/
theorem regAt?_of_aligned {n : Nat} (hn : n < 64) (h4 : n % 4 = 0) : ∃ r, regAt? n = some r := by
  have hall : ∀ m < 16, (regAt? (4 * m)).isSome = true := by decide
  obtain ⟨m, rfl⟩ := Nat.dvd_of_mod_eq_zero h4
  exact Option.isSome_iff_exists.mp (hall m (by omega))

theorem regAt?_of_misaligned {n : Nat} (h4 : n % 4 ≠ 0) : regAt? n = none :=
  Option.eq_none_iff_forall_ne_some.mpr fun r hr => h4 (regAt?_some hr ▸ offset_mod_four r)

theorem windowReg_outside {cfg : Config} {addr : Nat} (size : Nat) (h : addr < cfg.base ∨ cfg.base + 64 ≤ addr) :
    windowReg cfg addr size = .error (.outsideWindow addr) := if_pos h

theorem windowReg_notWord {cfg : Config} {addr size : Nat} (h : cfg.base ≤ addr ∧ addr < cfg.base + 64)
    (hbad : size ≠ 4 ∨ (addr - cfg.base) % 4 ≠ 0) :
    windowReg cfg addr size = .error (.notWordAccess addr size) := by
  unfold windowReg
  rw [if_neg (by omega)]
  by_cases hs : size = 4
  · rw [if_neg (not_not.mpr hs), regAt?_of_misaligned (hbad.resolve_left (not_not.mpr hs))]
  · rw [if_pos hs]

theorem exists_offset_of_aligned {cfg : Config} {addr : Nat} (h : cfg.base ≤ addr ∧ addr < cfg.base + 64)
    (h4 : (addr - cfg.base) % 4 = 0) : ∃ r : Reg, addr = cfg.base + r.offset := by
  obtain ⟨r, hr⟩ := regAt?_of_aligned (n := addr - cfg.base) (by omega) h4
  have hoff := regAt?_some hr
  exact ⟨r, by omega⟩

section
variable {s : State} {addr size : Nat} {rest : List Turn} {e : Refusal} (he : windowReg s.cfg addr size = .error e)
include he

theorem step_refused_write {d : Word} (hp : s.pending = .write addr size d :: rest) : step s = .refused e := by
  unfold step runTurn
  rw [hp]
  simp only [takeTurn, State.setPending_cfg, he]

theorem step_refused_read (hp : s.pending = .read addr size :: rest) : step s = .refused e := by
  unfold step runTurn
  rw [hp]
  simp only [takeTurn, State.setPending_cfg, he]

end

/-- Settles O5: an address is outside the window, inside it but no word access, or the address of a register. -/
theorem onlyAlignedWordAccessesInsideWindow : Obligations.OnlyAlignedWordAccessesInsideWindow := by
  refine ⟨windowReg_offset, fun cfg addr size => ?_, fun s addr size d rest e he =>
    ⟨step_refused_write he, step_refused_read he⟩⟩
  by_cases hout : addr < cfg.base ∨ cfg.base + 64 ≤ addr
  · exact .inl ⟨hout, windowReg_outside size hout⟩
  have hin : cfg.base ≤ addr ∧ addr < cfg.base + 64 := by omega
  by_cases hbad : size ≠ 4 ∨ (addr - cfg.base) % 4 ≠ 0
  · exact .inr (.inl ⟨hin, hbad, windowReg_notWord hin hbad⟩)
  · obtain ⟨rfl, h4⟩ : size = 4 ∧ (addr - cfg.base) % 4 = 0 := by omega
    obtain ⟨r, rfl⟩ := exists_offset_of_aligned hin h4
    exact .inr (.inr ⟨hin, rfl, h4, r, rfl, windowReg_offset cfg r⟩)

/-! ### Writes (R43, R45 to R48) -/

/-- While BUSY = 1 a write to any register, CTRL included, is dropped (R45). -/
theorem hostWrite_busy {s : State} (r : Reg) (d : Word) (hb : s.busy = true) : hostWrite r d s = .next s := by
  cases r
  case ctrl =>
    obtain ⟨_, h⟩ | ⟨hb', _⟩ := command_cases d s
    · exact h
    · exact absurd (hb.symm.trans hb') (by decide)
  all_goals exact whenIdle_busy hb

/-- The RO registers (R18, R43). -/
def readOnlyRegisters : List Reg := [.status, .keyLen, .inLen, .outLen, .outPop, .traceLen, .tracePop, .cap]

theorem hostWrite_readOnly {r : Reg} (hr : r ∈ readOnlyRegisters) (d : Word) (s : State) :
    hostWrite r d s = .next s := by
  cases r
  case status | keyLen | inLen | outLen | outPop | traceLen | tracePop | cap =>
    exact congrArg Host.Outcome.next (ite_self s)
  all_goals exact absurd hr (by decide)

section
variable {s : State} {r : Reg} {d : Word} {rest : List Turn}

theorem step_write_busy (hb : s.busy = true) (hp : s.pending = writeTurn s.cfg r d :: rest) :
    step s = .next (s.setPending rest) := (step_write hp).trans (hostWrite_busy r d hb)

theorem step_write_idle (hr : r ≠ .ctrl) (hb : s.busy = false) (hp : s.pending = writeTurn s.cfg r d :: rest) :
    step s = .next (writeEffect r d (s.setPending rest)) := by
  rw [step_write hp]
  cases r
  case ctrl => exact absurd rfl hr
  all_goals exact whenIdle_idle hb

end

theorem pushKey_fits {s : State} (c : Byte) (h : s.keyBuf.length < 64) :
    pushKey c s = s.setKeyBuf (s.keyBuf ++ [c]) := if_pos h

theorem pushKey_full {s : State} (c : Byte) (h : 64 ≤ s.keyBuf.length) : pushKey c s = s.setOvf true :=
  if_neg (Nat.not_lt.mpr h)

theorem pushIn_fits {s : State} (c : Byte) (h : s.inBuf.length < s.cfg.inDepth) :
    pushIn c s = s.setInBuf (s.inBuf ++ [c]) := if_pos h

theorem pushIn_full {s : State} (c : Byte) (h : s.cfg.inDepth ≤ s.inBuf.length) : pushIn c s = s.setOvf true :=
  if_neg (Nat.not_lt.mpr h)

/-- Settles O13: the gate before every write, and the events that clear BUSY. -/
theorem writesWhileBusyDropped : Obligations.WritesWhileBusyDropped := by
  refine ⟨fun s r d rest hb hp => step_write_busy hb hp, fun s t hb h ht => ?_⟩
  obtain ⟨_, hends, _⟩ := flagsChangeOnlyByTheirEvents s t h
  exact hends hb ht

/-- Settles O15: each of the five writes is the register's own update. -/
theorem operandRegisterWrites : Obligations.OperandRegisterWrites := by
  intro s rest d hb
  exact ⟨step_write_idle (r := .shift) (by decide) hb, step_write_idle (r := .iv0) (by decide) hb,
    step_write_idle (r := .iv1) (by decide) hb, step_write_idle (r := .iv2) (by decide) hb,
    step_write_idle (r := .iv3) (by decide) hb⟩

/-- Settles O16: the push fits, or overflows. -/
theorem keyPushAppendsOrOverflows : Obligations.KeyPushAppendsOrOverflows := by
  intro s rest d hb hp
  have hstep := step_write_idle (by decide) hb hp
  exact ⟨fun hlt => hstep.trans (congrArg _ (pushKey_fits (s := s.setPending rest) _ hlt)),
    fun hfull => hstep.trans (congrArg _ (pushKey_full (s := s.setPending rest) _ hfull))⟩

/-! ### The completion step after a dropped push (R48, R172) -/

theorem engineResult_overflow {ops : Operands} (cmd : Cmd) (h : ops.ovf = true) :
    engineResult cmd ops = .err .overflow := if_pos h

theorem complete_overflow {s : State} (h : s.ovf = true) : complete s = deliver .overflow s :=
  congrArg (conclude · s) (engineResult_overflow s.curCmd (ops := s.operands) h)

/-- The step that is the completion step (R166). -/
theorem step_completes {s : State} (h : s.completes) : ∃ ts, step s = .next (complete (s.setPending ts)) := by
  obtain ⟨hb, hp | hp⟩ := h
  · refine ⟨s.pending, ?_⟩
    rw [step_nil hp, engineTurn_busy hb]
    rfl
  · obtain ⟨ts, hts⟩ := List.head?_eq_some_iff.mp hp
    exact ⟨ts, (step_engine hts).trans (congrArg _ (engineTurn_busy hb))⟩

/-- Settles O17: the push fits, or overflows; only CLR and reset clear OVF; and `Exec` looks at OVF first. -/
theorem inPushAppendsOrOverflows : Obligations.InPushAppendsOrOverflows := by
  refine ⟨fun s rest d hb hp => ?_, fun s t h hovf => ?_, fun s t h hovf hc => ?_⟩
  · have hstep := step_write_idle (by decide) hb hp
    exact ⟨fun hlt => hstep.trans (congrArg _ (pushIn_fits (s := s.setPending rest) _ hlt)),
      fun hfull => hstep.trans (congrArg _ (pushIn_full (s := s.setPending rest) _ hfull))⟩
  · obtain ⟨_, _, _, _, _, hclears, _⟩ := flagsChangeOnlyByTheirEvents s t h
    cases ht : t.ovf
    · exact .inr (hclears hovf ht)
    · exact .inl rfl
  · obtain ⟨ts, hstep⟩ := step_completes hc
    have hflag := complete_overflow (s := s.setPending ts) hovf
    rw [hstep, hflag] at h
    cases h
    rfl

/-! ### Reads (R43, R44, R49, R50) -/

/-- Settles O14: a write to a read-only register and a read of a write-only one have no effect. -/
theorem readOnlyAndWriteOnlyRegisters : Obligations.ReadOnlyAndWriteOnlyRegisters := by
  refine fun s rest d => ⟨fun r hr hp => (step_write hp).trans (hostWrite_readOnly hr d _), fun r hr hp => ?_⟩
  rw [step_read hp]
  simp only [List.mem_cons, List.not_mem_nil, or_false] at hr
  obtain rfl | rfl | rfl := hr <;> rfl

theorem hostRead_outPop_some {s : State} {c : Byte} (h : s.outBuf[s.outRp]? = some c) :
    hostRead .outPop s = (s.setOutRp (s.outRp + 1)).setReadData (outWord (some c)) := by
  have hnext : nextOut s = some c := h
  simp only [hostRead, readEffect, readValue, popOut, hnext]

theorem hostRead_outPop_empty {s : State} (h : s.outBuf.length ≤ s.outRp) :
    hostRead .outPop s = s.setReadData 0 := by
  have hnext : nextOut s = none := List.getElem?_eq_none h
  simp only [hostRead, readEffect, readValue, popOut, hnext]
  rfl

theorem hostRead_tracePop_some {s : State} {e : TraceEntry} (h : s.traceBuf[s.traceRp]? = some e) :
    hostRead .tracePop s = (s.setTraceRp (s.traceRp + 1)).setReadData (traceWord (some e)) := by
  have hnext : nextTrace s = some e := h
  simp only [hostRead, readEffect, readValue, popTrace, hnext]

theorem hostRead_tracePop_empty {s : State} (h : s.traceBuf.length ≤ s.traceRp) :
    hostRead .tracePop s = s.setReadData 0 := by
  have hnext : nextTrace s = none := List.getElem?_eq_none h
  simp only [hostRead, readEffect, readValue, popTrace, hnext]
  rfl

/-- Settles O19: the next entry is there, or it is not. -/
theorem tracePopReturnsNextEntry : Obligations.TracePopReturnsNextEntry := fun s rest hp =>
  ⟨fun _ he => (step_read hp).trans (congrArg _ (hostRead_tracePop_some (s := s.setPending rest) he)),
    fun hend => (step_read hp).trans (congrArg _ (hostRead_tracePop_empty (s := s.setPending rest) hend))⟩

/-! ### What moves the output's read pointer (R49) -/

theorem hostRead_outRp (r : Reg) (s : State) :
    (hostRead r s).outRp = s.outRp ∨ (r = .outPop ∧ (hostRead r s).outRp = s.outRp + 1) := by
  cases r
  case outPop =>
    obtain ⟨c, hc, _⟩ | ⟨hend, _⟩ := popOut_cases s
    · exact .inr ⟨rfl, by simp [hostRead_outPop_some hc]⟩
    · exact .inl (by simp [hostRead_outPop_empty hend])
  case tracePop =>
    obtain ⟨e, he, _⟩ | ⟨hend, _⟩ := popTrace_cases s
    · exact .inl (by simp [hostRead_tracePop_some he])
    · exact .inl (by simp [hostRead_tracePop_empty hend])
  all_goals exact .inl rfl

theorem writeEffect_outRp (r : Reg) (d : Word) (s : State) : (writeEffect r d s).outRp = s.outRp := by
  obtain hr | ⟨_, _, h⟩ | ⟨_, _, h⟩ | ⟨_, _, h⟩ | ⟨_, _, h⟩ | h := writeEffect_cases r d s
  · obtain ⟨_, _, _, _, _, h⟩ := operandWrite_frame hr d s
    simp [h]
  all_goals simp [h]

theorem microTurn_outRp (s : State) : (microTurn s).outRp = s.outRp := by
  obtain ⟨wk, h⟩ := microTurn_eq s
  simp [h]

section
variable {s : State} (h : s.Inv)
include h

/-- While an operation runs there is nothing to pop (R30 (b), (d)). -/
theorem outRp_of_busy (hb : s.busy = true) : s.outRp = 0 := by
  obtain ⟨_, _, hout, _⟩ := h.busy_empty hb
  have hle := h.outRp_le
  rw [hout] at hle
  exact Nat.le_zero.mp hle

/-- The completion step returns the read pointer to 0, where it already stands. -/
theorem engineTurn_outRp : (engineTurn s).outRp = s.outRp := by
  cases hb : s.busy
  · rw [engineTurn_idle hb]
  · obtain ⟨_, _, _, hc⟩ := complete_frame s
    rw [engineTurn_busy hb, hc, outRp_of_busy h hb]

end

/-- A command leaves the read pointer or returns it to 0 (R170, R174 to R176). -/
theorem command_outRp {s t : State} {c : Word} {ts : List Turn} (hw : s.writes .ctrl c)
    (h : command c (s.setPending ts) = .next t) :
    t.outRp = s.outRp ∨ (t.outRp = 0 ∧ (s.runs ∨ s.illegal ∨ s.clears ∨ s.resets)) := by
  obtain ⟨_, h'⟩ | ⟨_, ⟨_, h'⟩ | ⟨hd, h'⟩ | ⟨i, cmd, hd, hr, h'⟩ | ⟨hd, h'⟩⟩ := command_cases c (s.setPending ts)
  all_goals
    rw [h'] at h
    cases h
  · exact .inl rfl
  · exact .inl rfl
  · exact .inr ⟨rfl, .inr (.inr (.inl ⟨c, hw, hd⟩))⟩
  · exact .inr ⟨rfl, .inl ⟨c, i, cmd, hw, hd, hr⟩⟩
  · exact .inr ⟨rfl, .inr (.inl ⟨c, hw, hd⟩)⟩

/-- What one step can do to the read pointer (R49). -/
theorem step_outRp {s t : State} (hs : s.Inv) (h : step s = .next t) :
    t.outRp = s.outRp ∨ (t.outRp = s.outRp + 1 ∧ s.pending.head? = some (readTurn s.cfg .outPop)) ∨
    (t.outRp = 0 ∧ (s.runs ∨ s.illegal ∨ s.clears ∨ s.resets)) := by
  obtain ⟨_, rfl⟩ | ⟨ts, ⟨_, rfl⟩ | ⟨_, rfl⟩ | ⟨hp, rfl⟩ | ⟨r, hp, rfl⟩ | ⟨_, _, _, _, rfl⟩ |
    ⟨r, d, _, _, _, rfl⟩ | ⟨c, hp, hb, hcmd⟩⟩ := step_cases h
  · exact .inl (engineTurn_outRp hs)
  · exact .inl (engineTurn_outRp (inv_setPending hs ts))
  · exact .inl (microTurn_outRp (s.setPending ts))
  · exact .inr (.inr ⟨rfl, .inr (.inr (.inr (by simp [State.resets, hp])))⟩)
  · obtain hkeep | ⟨rfl, hpop⟩ := hostRead_outRp r (s.setPending ts)
    · exact .inl hkeep
    · exact .inr (.inl ⟨hpop, by simp [hp]⟩)
  · exact .inl rfl
  · exact .inl (writeEffect_outRp r d (s.setPending ts))
  · exact (command_outRp ⟨hb, by simp [hp]⟩ hcmd).imp_right .inr

/-- Settles O18: the next character is there, or it is not; and the pointer moves as `step_outRp` says. -/
theorem outPopReturnsNextCharacter : Obligations.OutPopReturnsNextCharacter := by
  refine ⟨fun s rest hp => ⟨fun c hc => ?_, fun hend => ?_⟩, fun s t hs h => step_outRp hs h⟩
  · exact (step_read hp).trans (congrArg _ (hostRead_outPop_some (s := s.setPending rest) hc))
  · exact (step_read hp).trans (congrArg _ (hostRead_outPop_empty (s := s.setPending rest) hend))

/-! ### Pops in a row (R49, R50) -/

/-- No read depends on the turns still to come. -/
theorem hostRead_setPending (r : Reg) (s : State) (ts : List Turn) :
    hostRead r (s.setPending ts) = (hostRead r s).setPending ts := by
  cases r
  case outPop =>
    obtain ⟨c, hc, _⟩ | ⟨hend, _⟩ := popOut_cases s
    · rw [hostRead_outPop_some hc]; exact hostRead_outPop_some (s := s.setPending ts) hc
    · rw [hostRead_outPop_empty hend]; exact hostRead_outPop_empty (s := s.setPending ts) hend
  case tracePop =>
    obtain ⟨e, he, _⟩ | ⟨hend, _⟩ := popTrace_cases s
    · rw [hostRead_tracePop_some he]; exact hostRead_tracePop_some (s := s.setPending ts) he
    · rw [hostRead_tracePop_empty hend]; exact hostRead_tracePop_empty (s := s.setPending ts) hend
  all_goals rfl

theorem hostRead_cfg (r : Reg) (s : State) : (hostRead r s).cfg = s.cfg := by
  obtain ⟨_, _, _, h⟩ := hostRead_frame r s
  rw [h]

/-- `n` reads of one register in a row are `n` steps. -/
theorem runSteps_reads {r : Reg} {n : Nat} {s : State} {rest : List Turn}
    (hp : s.pending = List.replicate n (readTurn s.cfg r) ++ rest) :
    runSteps n s = .next ((hostRead r)^[n] (s.setPending rest)) := by
  induction n generalizing s with
  | zero => rw [runSteps_zero, ← show s.pending = rest from hp]; rfl
  | succ n ih =>
    have hstep := step_read (ts := List.replicate n (readTurn s.cfg r) ++ rest) hp
    rw [hostRead_setPending] at hstep
    rw [runSteps_succ, hstep, Function.iterate_succ_apply, hostRead_setPending]
    exact ih (s := (hostRead r s).setPending _) (by rw [State.setPending_cfg, hostRead_cfg]; rfl)

/-- If every pop takes `popped i` to `popped (i + 1)` and returns `word i`, the last of `k + 1` pops from the start
returns `word k`. -/
theorem iterate_pops {pop : State → State} {popped : Nat → Word → State} {word : Nat → Word} {n : Nat}
    (hpop : ∀ i < n, ∀ d, pop (popped i d) = popped (i + 1) (word i)) {k : Nat} (hk : k < n) (d : Word) :
    pop^[k + 1] (popped 0 d) = popped (k + 1) (word k) := by
  induction k with
  | zero => exact hpop 0 hk d
  | succ k ih => rw [Function.iterate_succ_apply', ih (Nat.lt_of_succ_lt hk), hpop (k + 1) hk]

theorem iterate_outPop {s : State} {k : Nat} {c : Byte} (hrp : s.outRp = 0) (hc : s.outBuf[k]? = some c) :
    (hostRead .outPop)^[k + 1] s = (s.setOutRp (k + 1)).setReadData (outWord (some c)) := by
  have hstart : s = (s.setOutRp 0).setReadData s.readData := by rw [← hrp]; rfl
  have h := iterate_pops (pop := hostRead .outPop) (popped := fun i d => (s.setOutRp i).setReadData d)
    (word := fun i => outWord s.outBuf[i]?)
    (fun i hi d => by rw [List.getElem?_eq_getElem hi]; exact hostRead_outPop_some (List.getElem?_eq_getElem hi))
    (List.getElem?_eq_some_iff.mp hc).1 s.readData
  rw [← hstart, hc] at h
  exact h

theorem iterate_tracePop {s : State} {k : Nat} {e : TraceEntry} (hrp : s.traceRp = 0)
    (he : s.traceBuf[k]? = some e) :
    (hostRead .tracePop)^[k + 1] s = (s.setTraceRp (k + 1)).setReadData (traceWord (some e)) := by
  have hstart : s = (s.setTraceRp 0).setReadData s.readData := by rw [← hrp]; rfl
  have h := iterate_pops (pop := hostRead .tracePop) (popped := fun i d => (s.setTraceRp i).setReadData d)
    (word := fun i => traceWord s.traceBuf[i]?)
    (fun i hi d => by rw [List.getElem?_eq_getElem hi]; exact hostRead_tracePop_some (List.getElem?_eq_getElem hi))
    (List.getElem?_eq_some_iff.mp he).1 s.readData
  rw [← hstart, he] at h
  exact h

/-- Settles O20, by induction on the number of pops. -/
theorem popsReadTheResultInOrder : Obligations.PopsReadTheResultInOrder :=
  ⟨fun s _ _ rest hrp hc hp =>
    (runSteps_reads hp).trans (congrArg _ (iterate_outPop (s := s.setPending rest) hrp hc)),
  fun s _ _ rest hrp he hp =>
    (runSteps_reads hp).trans (congrArg _ (iterate_tracePop (s := s.setPending rest) hrp he))⟩

/-! ### A running operation and the host (R44, R45, R56) -/

/-- While an operation runs a read has no side effect: there is nothing to pop (R30 (d)). -/
theorem hostRead_busy {s : State} (r : Reg) (hs : s.Inv) (hb : s.busy = true) :
    hostRead r s = s.setReadData (readValue r s) := by
  obtain ⟨_, _, hout, htrace⟩ := hs.busy_empty hb
  unfold hostRead
  obtain h | ⟨hlt, _⟩ | ⟨hlt, _⟩ := readEffect_cases r s
  · rw [h]
  · rw [hout] at hlt; exact absurd hlt (Nat.not_lt_zero _)
  · rw [htrace] at hlt; exact absurd hlt (Nat.not_lt_zero _)

/-- The registers that show the result (R21, R22). -/
def resultRegisters : List Reg := [.outLen, .outPop, .traceLen, .tracePop]

/-- While an operation runs the result reads as empty (R44). -/
theorem readValue_result_busy {s : State} {r : Reg} (hr : r ∈ resultRegisters) (hs : s.Inv) (hb : s.busy = true) :
    readValue r s = 0 := by
  obtain ⟨_, _, hout, htrace⟩ := hs.busy_empty hb
  have hlen : lengthWord 0 = 0 := by decide
  cases r
  case outLen => simp only [readValue, hout, List.length_nil, hlen]
  case outPop => simp only [readValue, nextOut, hout, List.getElem?_nil, outWord]
  case traceLen => simp only [readValue, htrace, List.length_nil, hlen]
  case tracePop => simp only [readValue, nextTrace, htrace, List.getElem?_nil, traceWord]
  all_goals exact absurd hr (by decide)

/-- Settles O21: a read answers in every state, and the result of a running operation reads as empty. -/
theorem readsAreLegalInEveryState : Obligations.ReadsAreLegalInEveryState := by
  refine ⟨fun s rest => ⟨step_read, step_read, step_read, step_read, step_read, step_read, step_read, step_read,
    step_read, step_read, step_read⟩, fun s rest hs hb r hr hp => ?_⟩
  have hs' := inv_setPending hs rest
  rw [step_read hp, hostRead_busy r hs' hb, readValue_result_busy hr hs' hb]
  rfl

/-- `s` with other values in the three fields that a host access or a micro-step may write while an operation runs. -/
def State.withPort (s : State) (ts : List Turn) (d : Word) (wk : Work) : State :=
  { s with pending := ts, readData := d, work := wk }

theorem inv_withPort {s : State} (h : s.Inv) (ts : List Turn) (d : Word) (wk : Work) : (s.withPort ts d wk).Inv :=
  { h with }

/-- The completion step neither reads nor writes those fields (R171, R172). -/
theorem complete_withPort (s : State) (ts : List Turn) (d : Word) (wk : Work) :
    complete (s.withPort ts d wk) = (complete s).withPort ts d wk := by
  have hops : engineResult (s.withPort ts d wk).curCmd (s.withPort ts d wk).operands =
      engineResult s.curCmd s.operands := rfl
  unfold complete
  rw [hops]
  cases engineResult s.curCmd s.operands <;> rfl

theorem windowReg_isOk {cfg : Config} {addr size : Nat} (h : (windowReg cfg addr size).isOk = true) :
    ∃ r : Reg, addr = cfg.base + r.offset ∧ size = 4 := by
  cases hw : windowReg cfg addr size with
  | ok r => exact ⟨r, windowReg_ok hw⟩
  | error e => rw [hw] at h; cases h

/-- An access that reaches a register is a write to it or a read of it (R41, R42). -/
theorem reaches_cases {cfg : Config} {t : Turn} (h : t.reaches cfg = true) :
    (∃ r d, t = writeTurn cfg r d) ∨ ∃ r, t = readTurn cfg r := by
  cases t with
  | write addr size d => obtain ⟨r, rfl, rfl⟩ := windowReg_isOk h; exact .inl ⟨r, d, rfl⟩
  | read addr size => obtain ⟨r, rfl, rfl⟩ := windowReg_isOk h; exact .inr ⟨r, rfl⟩
  | engine | micro | reset => cases h

/-- What a host access or a micro-step can do while an operation runs (R45, R56). -/
theorem step_busy_access {s : State} {t : Turn} {ts : List Turn} (hs : s.Inv) (hb : s.busy = true)
    (ht : t.reaches s.cfg = true ∨ t = .micro) (hp : s.pending = t :: ts) :
    ∃ d wk, step s = .next (s.withPort ts d wk) := by
  obtain hreach | rfl := ht
  · obtain ⟨r, d, rfl⟩ | ⟨r, rfl⟩ := reaches_cases hreach
    · exact ⟨s.readData, s.work, step_write_busy hb hp⟩
    · exact ⟨_, s.work, (step_read hp).trans (congrArg _ (hostRead_busy r (inv_setPending hs ts) hb))⟩
  · obtain ⟨wk, hwk⟩ := microTurn_eq (s.setPending ts)
    exact ⟨s.readData, wk, (step_micro hp).trans (congrArg _ hwk)⟩

/-- Settles O52, by induction on the accesses: each leaves what the completion step reads. -/
theorem runningOperationIsIsolated : Obligations.RunningOperationIsIsolated := by
  intro s accesses rest hs hb hacc hp
  induction accesses generalizing s with
  | nil =>
    refine ⟨s.readData, s.work, ?_⟩
    rw [List.length_nil, runSteps_succ, step_engine hp]
    exact congrArg _ ((engineTurn_busy (s := s.setPending rest) hb).trans (complete_withPort s rest s.readData s.work))
  | cons a accesses ih =>
    obtain ⟨d, wk, hstep⟩ := step_busy_access hs hb (hacc a List.mem_cons_self) hp
    obtain ⟨d', wk', hrun⟩ := ih (s.withPort _ d wk) (inv_withPort hs _ d wk) hb
      (fun t ht => hacc t (List.mem_cons_of_mem a ht)) rfl
    rw [complete_withPort] at hrun
    exact ⟨d', wk', by rw [List.length_cons, runSteps_succ, hstep]; exact hrun⟩

end Sys2Proof.Machine

/-! PROOF. The statements of `30_encoding.md`: the command words, what the decoder rejects, which operands a command
reads, and the words the host reads. -/

namespace Sys2Proof

/-! ### The fields of a command word (R63) -/

section
variable (sinv t mode dir alg : Bool) (op : BitVec 4)

@[simp] theorem opField_packWord : opField (packWord sinv t mode dir alg op) = op :=
  BitVec.extractLsb'_append_eq_right

@[simp] theorem algBit_packWord : algBit (packWord sinv t mode dir alg op) = alg := by
  simp only [algBit, packWord, BitVec.getLsbD_append, BitVec.getLsbD_ofBool]; rfl

@[simp] theorem dirBit_packWord : dirBit (packWord sinv t mode dir alg op) = dir := by
  simp only [dirBit, packWord, BitVec.getLsbD_append, BitVec.getLsbD_ofBool]; rfl

@[simp] theorem modeBit_packWord : modeBit (packWord sinv t mode dir alg op) = mode := by
  simp only [modeBit, packWord, BitVec.getLsbD_append, BitVec.getLsbD_ofBool]; rfl

@[simp] theorem tBit_packWord : tBit (packWord sinv t mode dir alg op) = t := by
  simp only [tBit, packWord, BitVec.getLsbD_append, BitVec.getLsbD_ofBool]; rfl

@[simp] theorem sinvBit_packWord : sinvBit (packWord sinv t mode dir alg op) = sinv := by
  simp only [sinvBit, packWord, BitVec.getLsbD_append, BitVec.getLsbD_ofBool]; rfl

end

theorem ofBool_getLsbD {w : Nat} (x : BitVec w) (i : Nat) : BitVec.ofBool (x.getLsbD i) = x.extractLsb' i 1 := by
  ext j hj
  obtain rfl : j = 0 := by omega
  simp

/-- A word whose reserved bits are 0 is its six other fields, packed. -/
theorem packWord_fields {c : Word} (hr : reservedField c = 0) :
    packWord (sinvBit c) (tBit c) (modeBit c) (dirBit c) (algBit c) (opField c) = c := by
  unfold packWord
  rw [← show reservedField c = 0#23 from hr]
  simp only [reservedField, sinvBit, tBit, modeBit, dirBit, algBit, opField, ofBool_getLsbD,
    BitVec.extractLsb'_append_extractLsb'_eq_extractLsb', BitVec.extractLsb'_eq_self]

theorem runFields_eq (c : Word) : runFields c = BitVec.ofBool (sinvBit c) ++ BitVec.ofBool (tBit c) ++
    BitVec.ofBool (modeBit c) ++ BitVec.ofBool (dirBit c) ++ BitVec.ofBool (algBit c) := by
  simp only [runFields, sinvBit, tBit, modeBit, dirBit, algBit, ofBool_getLsbD,
    BitVec.extractLsb'_append_extractLsb'_eq_extractLsb']

theorem runFields_eq_zero {c : Word} : runFields c = 0#5 ↔
    sinvBit c = false ∧ tBit c = false ∧ modeBit c = false ∧ dirBit c = false ∧ algBit c = false := by
  rw [runFields_eq]
  generalize sinvBit c = sinv, tBit c = t, modeBit c = mode, dirBit c = dir, algBit c = alg
  revert sinv t mode dir alg
  decide

/-- Bits [8:7], SINV and T, which must be 0 in an AES command (R71). -/
theorem sinv_t_ne_zero {c : Word} : c.extractLsb' 7 2 ≠ 0 ↔ (sinvBit c || tBit c) = true := by
  have hfield : c.extractLsb' 7 2 = BitVec.ofBool (sinvBit c) ++ BitVec.ofBool (tBit c) := by
    simp only [sinvBit, tBit, ofBool_getLsbD, BitVec.extractLsb'_append_extractLsb'_eq_extractLsb']
  rw [hfield]
  generalize sinvBit c = sinv, tBit c = t
  revert sinv t
  decide

/-! ### The decoder, by OP (R167) -/

theorem opField_cases (c : Word) : opField c = 0 ∨ opField c = 2 ∨ opField c = 1 ∨ 3 ≤ (opField c).toNat := by
  generalize opField c = op
  revert op
  decide

theorem decode_of_reserved (h : Bool) {c : Word} (hr : reservedField c ≠ 0) : decode h c = none := if_pos hr

section
variable (h : Bool) {c : Word} (hr : reservedField c = 0)
include hr

theorem decode_of_op_zero (ho : opField c = 0) :
    decode h c = if runFields c = 0 then some .nop else none := by simp [decode, hr, ho]

theorem decode_of_op_two (ho : opField c = 2) :
    decode h c = if runFields c = 0 then some .clr else none := by simp [decode, hr, ho]

theorem decode_of_op_one (ho : opField c = 1) :
    decode h c = if algBit c then decodeAes h c else decodeShift c := by simp [decode, hr, ho]

theorem decode_of_op_unassigned (ho : 3 ≤ (opField c).toNat) : decode h c = none := by
  have hne : opField c ≠ 0 ∧ opField c ≠ 2 ∧ opField c ≠ 1 := by
    refine ⟨?_, ?_, ?_⟩ <;> intro heq <;> rw [heq] at ho <;> exact absurd ho (by decide)
  obtain ⟨h0, h2, h1⟩ := hne
  simp only [decode, hr, h0, h2, h1, ne_eq, not_true_eq_false, if_false]

end

/-! ### Decoder and encoder agree (R64) -/

/-- The word of a command decodes to the command where it is legal, and not at all where it is not. -/
theorem decode_encode (h : Bool) (i : Instr) : decode h (encode i) = if i.wf h then some i else none := by
  cases i
  case nop | clr => simp [decode, encode, Instr.wf, Laws.packWord_reserved, runFields_eq_zero]
  case shiftEnc | shiftDec => simp [decode, decodeShift, encode, Instr.wf, Laws.packWord_reserved]
  case aesEcbEnc | aesEcbDec => simp [decode, decodeAes, encode, Instr.wf, Laws.packWord_reserved]
  case aesCbcEnc | aesCbcDec => cases h <;> simp [decode, decodeAes, encode, Instr.wf, Laws.packWord_reserved]

section
variable {h : Bool} {c : Word} {i : Instr} (hr : reservedField c = 0)
include hr

/-- Without operand fields OP alone makes the word. -/
theorem packWord_of_runFields {op : BitVec 4} (ho : opField c = op) (hrun : runFields c = 0) :
    packWord false false false false false op = c := by
  obtain ⟨hs, ht, hm, hd, ha⟩ := runFields_eq_zero.mp hrun
  simpa only [hs, ht, hm, hd, ha, ho] using packWord_fields hr

theorem encode_of_decodeShift (ho : opField c = 1) (ha : algBit c = false) (hd : decodeShift c = some i) :
    encode i = c := by
  unfold decodeShift at hd
  split at hd
  · cases hd
  next hm =>
    split at hd
    all_goals
      next hdir =>
        cases hd
        simpa [encode, ho, ha, hm, hdir] using packWord_fields hr

theorem encode_of_decodeAes (ho : opField c = 1) (ha : algBit c = true) (hd : decodeAes h c = some i) :
    encode i = c := by
  unfold decodeAes at hd
  split at hd
  · cases hd
  next hst =>
    obtain ⟨hs, ht⟩ := Bool.or_eq_false_iff.mp (Bool.eq_false_of_not_eq_true hst)
    split at hd
    · cases hd
    · split at hd
      all_goals
        next hm hdir =>
          cases hd
          simpa [encode, ho, ha, hs, ht, hm, hdir] using packWord_fields hr

end

/-- A word that decodes to a command is that command's one word. -/
theorem encode_of_decode {h : Bool} {c : Word} {i : Instr} (hd : decode h c = some i) : encode i = c := by
  have hr : reservedField c = 0 := by
    by_contra hr
    rw [decode_of_reserved h hr] at hd
    cases hd
  obtain ho | ho | ho | ho := opField_cases c
  · rw [decode_of_op_zero h hr ho] at hd
    obtain ⟨hrun, ⟨⟩⟩ := Option.ite_none_right_eq_some.mp hd
    exact packWord_of_runFields hr ho hrun
  · rw [decode_of_op_two h hr ho] at hd
    obtain ⟨hrun, ⟨⟩⟩ := Option.ite_none_right_eq_some.mp hd
    exact packWord_of_runFields hr ho hrun
  · rw [decode_of_op_one h hr ho] at hd
    cases ha : algBit c <;> simp only [ha] at hd
    · exact encode_of_decodeShift hr ho ha hd
    · exact encode_of_decodeAes hr ho ha hd
  · rw [decode_of_op_unassigned h hr ho] at hd
    cases hd

/-- Settles O1: the decoder undoes the encoder, and accepts only the encoder's words of legal commands. -/
theorem decodeEncodeAgree : Obligations.DecodeEncodeAgree :=
  ⟨fun h i hw => (decode_encode h i).trans (if_pos hw), fun _ _ _ hd => ⟨Machine.decode_wf hd, encode_of_decode hd⟩⟩

/-- Settles O3: each word is its command's word. -/
theorem opcodeMapWordsDecode : Obligations.OpcodeMapWordsDecode :=
  ⟨decode_encode true .nop, decode_encode true .clr, decode_encode true (.shiftEnc true true),
    decode_encode true (.shiftDec true false), decode_encode true .aesEcbEnc, decode_encode true .aesEcbDec,
    decode_encode true .aesCbcEnc, decode_encode true .aesCbcDec, decode_encode false .aesCbcEnc,
    decode_encode false .aesCbcDec⟩

/-! ### Which words are illegal (R71) -/

theorem decodeShift_eq_none {c : Word} : decodeShift c = none ↔ modeBit c = true := by
  unfold decodeShift
  cases modeBit c <;> cases dirBit c <;> simp

theorem decodeAes_eq_none {h : Bool} {c : Word} :
    decodeAes h c = none ↔ c.extractLsb' 7 2 ≠ 0 ∨ (modeBit c = true ∧ h = false) := by
  rw [sinv_t_ne_zero]
  unfold decodeAes
  cases sinvBit c || tBit c <;> cases modeBit c <;> cases dirBit c <;> cases h <;> simp

/-- The six conditions of R71. -/
theorem decode_eq_none {h : Bool} {c : Word} : decode h c = none ↔
    reservedField c ≠ 0 ∨
    3 ≤ (opField c).toNat ∨
    ((opField c = 0 ∨ opField c = 2) ∧ runFields c ≠ 0) ∨
    (opField c = 1 ∧ algBit c = false ∧ modeBit c = true) ∨
    (opField c = 1 ∧ algBit c = true ∧ c.extractLsb' 7 2 ≠ 0) ∨
    (opField c = 1 ∧ algBit c = true ∧ modeBit c = true ∧ h = false) := by
  by_cases hr : reservedField c = 0
  · obtain ho | ho | ho | ho := opField_cases c
    · simp [decode_of_op_zero h hr ho, hr, ho]
    · simp [decode_of_op_two h hr ho, hr, ho]
    · rw [decode_of_op_one h hr ho]
      cases ha : algBit c
      · simp [decodeShift_eq_none, hr, ho]
      · simp [decodeAes_eq_none, hr, ho]
    · exact iff_of_true (decode_of_op_unassigned h hr ho) (.inr (.inl ho))
  · exact iff_of_true (decode_of_reserved h hr) (.inl hr)

/-- Every command, T and SINV at every value, in the order of R64. -/
def allCommands : List Instr :=
  [.nop, .clr, .shiftEnc false false, .shiftEnc true false, .shiftEnc false true, .shiftEnc true true,
   .shiftDec false false, .shiftDec true false, .shiftDec false true, .shiftDec true true,
   .aesEcbEnc, .aesEcbDec, .aesCbcEnc, .aesCbcDec]

theorem mem_allCommands (i : Instr) : i ∈ allCommands := by
  cases i
  case shiftEnc t sinv | shiftDec t sinv => cases t <;> cases sinv <;> decide
  all_goals decide

/-- The words of the commands that are legal where HAS_CBC is `h`. -/
def legalWords (h : Bool) : List Word := (allCommands.filter (·.wf h)).map encode

theorem decode_ne_none {h : Bool} {c : Word} : decode h c ≠ none ↔ c ∈ legalWords h := by
  simp only [legalWords, List.mem_map, List.mem_filter, mem_allCommands, true_and, Option.ne_none_iff_exists']
  constructor
  · rintro ⟨i, hd⟩
    exact ⟨i, Machine.decode_wf hd, encode_of_decode hd⟩
  · rintro ⟨i, hw, rfl⟩
    exact ⟨i, (decode_encode h i).trans (if_pos hw)⟩

end Sys2Proof

namespace Sys2Proof.Machine

theorem command_illegal {s : State} {c : Word} (hb : s.busy = false) (hd : decode s.cfg.hasCbc c = none) :
    command c s = .next (illegalCommand s) := by
  unfold command
  rw [hd]
  exact whenIdle_idle hb

/-- Settles O2: the six conditions, the words of the legal commands, and the illegal command's effect. -/
theorem illegalCommandWords : Obligations.IllegalCommandWords :=
  ⟨fun _ _ => decode_eq_none, fun _ => decode_ne_none, fun _ => decode_ne_none,
    fun s _ hb hd => ⟨illegalCommand s, command_illegal hb hd, rfl⟩⟩

/-! ### Commands that are illegal without CBC (R71, R152, R153) -/

theorem wf_eq_false {h : Bool} {i : Instr} : i.wf h = false ↔ h = false ∧ (i = .aesCbcEnc ∨ i = .aesCbcDec) := by
  cases i <;> simp [Instr.wf]

theorem exec_illFormed {i : Instr} {s : State} (hb : s.busy = false) (hw : i.wf s.cfg.hasCbc = false) :
    exec i s = .next (illegalCommand s) := by
  obtain ⟨hh, rfl | rfl⟩ := wf_eq_false.mp hw
  all_goals
    refine (whenIdle_idle hb).trans (congrArg _ ?_)
    simp only [acceptCbc, hh]
    rfl

/-- While BUSY = 0 an illegal command leaves the phase as it is (R176). -/
theorem illegalCommand_idle {s : State} (hb : s.busy = false) : illegalCommand s = { s with
    outBuf := [], outRp := 0, traceBuf := [], traceRp := 0, done := true, err := some .illegalCommand } := by
  rw [illegalCommand_eq, deliver_eq, ← (not_busy_iff s).mp hb]

/-- Settles O41: the CBC commands are the only ones with a condition, and without it they do not decode. -/
theorem cbcCommandsNeedHasCbc : Obligations.CbcCommandsNeedHasCbc :=
  ⟨fun i => by simp [wf_eq_false], fun i hw => (decode_encode false i).trans (if_neg (by simp [hw])),
    fun _ _ hb hw => (exec_illFormed hb hw).trans (congrArg _ (illegalCommand_idle hb))⟩

/-! ### What an operation reads (R70) -/

/-- ECB does not read the IV. -/
theorem aesRun_ecb_iv (dir : Dir) (kc ic : List Byte) (iv iv' : Block) :
    aesRun dir .ecb kc ic iv = aesRun dir .ecb kc ic iv' := by
  have hcipher : ∀ w db, aesCipher dir .ecb w db iv = aesCipher dir .ecb w db iv' := by
    intro w db
    cases dir <;> rfl
  simp only [aesRun, hcipher]

theorem aesResult_congr {cmd : Cmd} {ops ops' : Operands} (htext : ops.text = ops'.text) (hkey : ops.key = ops'.key)
    (hiv : cmd.mode = .cbc → ops.iv = ops'.iv) : aesResult cmd ops = aesResult cmd ops' := by
  unfold aesResult
  cases hm : cmd.mode with
  | ecb => rw [htext, hkey, aesRun_ecb_iv cmd.dir ops'.key ops'.text ops.iv ops'.iv]
  | cbc => rw [htext, hkey, hiv hm]

theorem shiftResult_congr {cmd : Cmd} {ops ops' : Operands} (htext : ops.text = ops'.text)
    (hshift : ops.shift = ops'.shift) : shiftResult cmd ops = shiftResult cmd ops' := by
  simp only [shiftResult, htext, hshift]

/-- `Exec` depends on OVF, the text and the operands that the command's algorithm and mode read (R70, R171). -/
theorem engineResult_congr {cmd : Cmd} {ops ops' : Operands} (hovf : ops.ovf = ops'.ovf) (htext : ops.text = ops'.text)
    (hshift : cmd.alg = .shift → ops.shift = ops'.shift) (hkey : cmd.alg = .aes → ops.key = ops'.key)
    (hiv : cmd.alg = .aes → cmd.mode = .cbc → ops.iv = ops'.iv) : engineResult cmd ops = engineResult cmd ops' := by
  unfold engineResult
  rw [hovf]
  cases ha : cmd.alg with
  | shift => simp only [shiftResult_congr htext (hshift ha)]
  | aes => simp only [aesResult_congr htext (hkey ha) (hiv ha)]

/-- Settles O56: both completion steps conclude with the same result. -/
theorem unreadOperandsHaveNoInfluence : Obligations.UnreadOperandsHaveNoInfluence := by
  intro s s' hcmd hovf htext hshift hkey hiv
  have hresult : engineResult s.curCmd s.operands = engineResult s'.curCmd s'.operands :=
    hcmd ▸ engineResult_congr hovf htext hshift hkey hiv
  unfold complete
  rw [hresult]
  cases engineResult s'.curCmd s'.operands <;> exact ⟨rfl, rfl, rfl⟩

/-! ### The words the host reads (R65, R67, R68) -/

theorem inDepth_le {c : Config} (h : c.wf = true) : c.inDepth ≤ 32736 := (of_decide_eq_true h).2

/-- A length that fits its field reads as itself. -/
theorem lengthWord_toNat {n : Nat} (h : n < 65536) : (lengthWord n).toNat = n := by
  rw [lengthWord, BitVec.toNat_append]
  simp [Nat.mod_eq_of_lt h]

theorem capWord_inDepth {c : Config} (h : c.inDepth < 65536) :
    ((capWord c).extractLsb' 0 16).toNat = c.inDepth := by
  have hfield : (capWord c).extractLsb' 0 16 = BitVec.ofNat 16 c.inDepth := BitVec.extractLsb'_append_eq_right
  rw [hfield, BitVec.toNat_ofNat, Nat.mod_eq_of_lt h]

theorem capWord_hasCbc (c : Config) : (capWord c).getLsbD 16 = c.hasCbc := by
  simp only [capWord, BitVec.getLsbD_append, BitVec.getLsbD_ofBool]; rfl

theorem capWord_reserved (c : Config) : (capWord c).extractLsb' 17 15 = 0 :=
  (BitVec.extractLsb'_append_eq_of_le (by decide)).trans BitVec.extractLsb'_append_eq_left

/-- Settles O23: the invariants bound every value below its field's size. -/
theorem lengthAndCapRegistersExact : Obligations.LengthAndCapRegistersExact := by
  intro s hs
  have hdepth := inDepth_le hs.cfg_wf
  have hkey := hs.key_fits
  have hin := hs.in_fits
  have hout := hs.out_fits
  have htrace := hs.trace_fits
  simp only [Config.keyDepth, Config.outDepth, Config.traceDepth] at hkey hout htrace
  exact ⟨lengthWord_toNat (by omega), lengthWord_toNat (by omega), lengthWord_toNat (by omega),
    lengthWord_toNat (by omega), capWord_inDepth (by omega), capWord_hasCbc s.cfg, capWord_reserved s.cfg⟩

theorem statusWord_low (s : State) : (statusWord s).getLsbD 0 = s.busy ∧ (statusWord s).getLsbD 1 = s.done ∧
    (statusWord s).getLsbD 2 = s.ovf ∧ (statusWord s).getLsbD 3 = false := by
  simp only [statusWord, BitVec.getLsbD_append, BitVec.getLsbD_ofBool]
  exact ⟨rfl, rfl, rfl, rfl⟩

/-- Above bit 3 STATUS holds the error code and 25 zeros. -/
theorem statusWord_high (s : State) {i : Nat} (n : Nat) (hi : 4 ≤ i) :
    (statusWord s).extractLsb' i n = (0#25 ++ errCode s.err).extractLsb' (i - 4) n := by
  unfold statusWord
  iterate 4 refine (BitVec.extractLsb'_append_eq_of_le (by omega)).trans ?_
  rfl

theorem statusWord_err (s : State) : (statusWord s).extractLsb' 4 3 = errCode s.err :=
  (statusWord_high s 3 (by decide)).trans BitVec.extractLsb'_append_eq_right

theorem statusWord_reserved (s : State) : (statusWord s).extractLsb' 7 25 = 0 :=
  (statusWord_high s 25 (by decide)).trans BitVec.extractLsb'_append_eq_left

/-- STATUS with OVF put to 0. -/
def statusWithoutOvf (err : Option Err) (done busy : Bool) : Word :=
  0#25 ++ errCode err ++ 0#2 ++ BitVec.ofBool done ++ BitVec.ofBool busy

/-- The mask of R65 clears bit 2, OVF, and nothing else. -/
theorem statusWord_masked (s : State) : statusWord s &&& 0xFFFFFFFB#32 = statusWithoutOvf s.err s.done s.busy := by
  unfold statusWord statusWithoutOvf
  generalize errCode s.err = e, s.ovf = o, s.done = d, s.busy = b
  revert e o d b
  decide

/-- BUSY alone, nothing at all, or DONE with any code: with the invariants no other combination of flags occurs (R30). -/
theorem flags_cases {s : State} (hs : s.Inv) :
    (s.busy = true ∧ s.done = false ∧ s.err = none) ∨ (s.busy = false ∧ s.done = false ∧ s.err = none) ∨
    (s.busy = false ∧ s.done = true) := by
  cases hb : s.busy
  · cases hd : s.done
    · exact .inr (.inl ⟨rfl, rfl, hs.not_done_no_err hd⟩)
    · exact .inr (.inr ⟨rfl, rfl⟩)
  · obtain ⟨hd, he, _, _⟩ := hs.busy_empty hb
    exact .inl ⟨rfl, hd, he⟩

/-- Settles O22: the fields one by one, then the combinations of flags that the invariants admit. -/
theorem statusLayout : Obligations.StatusLayout := by
  refine ⟨fun s => ?_, fun s hs => ?_⟩
  · obtain ⟨hbusy, hdone, hovf, hzero⟩ := statusWord_low s
    exact ⟨hbusy, hdone, hovf, hzero, statusWord_err s, statusWord_reserved s, busy_iff s⟩
  rw [statusWord_masked]
  obtain ⟨hb, hd, he⟩ | ⟨hb, hd, he⟩ | ⟨hb, hd⟩ := flags_cases hs
  · rw [hb, hd, he]; decide
  · rw [hb, hd, he]; decide
  · rw [hb, hd]
    cases s.err with
    | none => decide
    | some e => cases e <;> decide

end Sys2Proof.Machine

/-! PROOF. The statements of `40_shift_cipher.md`: the shift amounts, the laws of the cipher, its trace, and the two
shift commands. -/

namespace Sys2Proof.Machine

/-! ### The shift amounts (R81, R82) -/

theorem normShift_cast (s : Word) : (normShift s : Int) = s.toInt % 26 :=
  Int.toNat_of_nonneg (Int.emod_nonneg _ (by decide))

theorem normShift_lt (s : Word) : normShift s < 26 := by
  have hcast := normShift_cast s
  omega

theorem effShift_decrypt (s : Word) :
    effShift s .decrypt = if normShift s = 0 then 0 else 26 - normShift s := by
  have hlt := normShift_lt s
  simp only [effShift]
  by_cases h : normShift s = 0
  · simp [h]
  · rw [if_neg h, Nat.mod_eq_of_lt (by omega)]

/-- Settles O24: the floor remainder is characterised by its range and its congruence, and R82's form of the
decryption amount is minus the encryption amount modulo 26. -/
theorem shiftAmounts : Obligations.ShiftAmounts := by
  refine ⟨fun s => ⟨normShift_lt s, s.toInt / 26, ?_⟩, fun _ => rfl, effShift_decrypt, fun s i _ => ?_⟩
  · rw [normShift_cast, Int.mul_ediv_add_emod]
  · have hcast := normShift_cast s
    have hlt := normShift_lt s
    simp only [effShift]
    omega

/-- The amounts of the two directions cancel modulo 26. -/
theorem effShift_encrypt_add_decrypt (s : Word) : (effShift s .encrypt + effShift s .decrypt) % 26 = 0 := by
  have hlt := normShift_lt s
  simp only [effShift]
  omega

theorem effShift_of_normShift_zero {s : Word} (h : normShift s = 0) (dir : Dir) : effShift s dir = 0 := by
  cases dir <;> simp [effShift, h]

theorem effShift_congr {s s' : Word} (h : normShift s = normShift s') (dir : Dir) : effShift s dir = effShift s' dir := by
  cases dir <;> simp only [effShift, h]

/-- Adding 26 without overflow keeps the amount (R87 (e)). -/
theorem normShift_add_26 {s : Word} (h : s.toInt + 26 < 2 ^ 31) : normShift (s + 26) = normShift s := by
  have hlow : -2 ^ 31 ≤ s.toInt := BitVec.le_toInt s
  have hsum : (s + 26).toInt = s.toInt + 26 :=
    (BitVec.toInt_add s 26).trans (Int.bmod_eq_of_le (m := 2 ^ 32) (n := s.toInt + 26) (by omega) (by omega))
  unfold normShift
  rw [hsum, Int.add_emod_right]

/-! ### Letters (R83, R84) -/

/-- The letter of index `i` modulo 26, in upper or in lower case. -/
def letter (upper : Bool) (i : Nat) : Byte := BitVec.ofNat 8 ((if upper then 0x41 else 0x61) + i % 26)

theorem letter_toNat (u : Bool) (i : Nat) : (letter u i).toNat = (if u then 0x41 else 0x61) + i % 26 := by
  rw [letter, BitVec.toNat_ofNat, Nat.mod_eq_of_lt]
  split <;> omega

@[simp] theorem isUpper_letter (u : Bool) (i : Nat) : isUpper (letter u i) = u := by
  unfold isUpper
  rw [letter_toNat]
  cases u <;> simp <;> omega

@[simp] theorem isLower_letter (u : Bool) (i : Nat) : isLower (letter u i) = !u := by
  unfold isLower
  rw [letter_toNat]
  cases u <;> simp <;> omega

theorem letter_congr (u : Bool) {i j : Nat} (h : i % 26 = j % 26) : letter u i = letter u j := by
  simp only [letter, h]

/-- A code is a letter of one of the two cases, or no letter. -/
theorem letter_or_not_alpha (c : Byte) : (∃ u i, c = letter u i) ∨ isAlpha c = false := by
  cases hu : isUpper c
  · cases hl : isLower c
    · exact .inr (by simp [isAlpha, hu, hl])
    · have hc := of_decide_eq_true hl
      refine .inl ⟨false, c.toNat - 0x61, BitVec.eq_of_toNat_eq ?_⟩
      rw [letter_toNat]
      simp only [Bool.false_eq_true, if_false]
      omega
  · have hc := of_decide_eq_true hu
    refine .inl ⟨true, c.toNat - 0x41, BitVec.eq_of_toNat_eq ?_⟩
    rw [letter_toNat]
    simp only [if_true]
    omega

/-- R84 on a letter: the amount is added to the index and the case is kept. -/
theorem rot_letter (ke : Nat) (u : Bool) (i : Nat) : rot ke (letter u i) = letter u (i + ke) := by
  unfold rot
  rw [isUpper_letter, isLower_letter, letter_toNat]
  cases u <;> simp [letter]

/-- R84 on a code that is no letter. -/
theorem rot_of_not_alpha (ke : Nat) {c : Byte} (h : isAlpha c = false) : rot ke c = c := by
  obtain ⟨hu, hl⟩ := Bool.or_eq_false_iff.mp h
  simp [rot, hu, hl]

theorem isUpper_rot (ke : Nat) (c : Byte) : isUpper (rot ke c) = isUpper c := by
  obtain ⟨u, i, rfl⟩ | hc := letter_or_not_alpha c
  · simp [rot_letter]
  · rw [rot_of_not_alpha ke hc]

theorem isLower_rot (ke : Nat) (c : Byte) : isLower (rot ke c) = isLower c := by
  obtain ⟨u, i, rfl⟩ | hc := letter_or_not_alpha c
  · simp [rot_letter]
  · rw [rot_of_not_alpha ke hc]

/-- Amounts that cancel modulo 26 undo each other. -/
theorem rot_rot_cancel {a b : Nat} (h : (a + b) % 26 = 0) (c : Byte) : rot b (rot a c) = c := by
  obtain ⟨u, i, rfl⟩ | hc := letter_or_not_alpha c
  · rw [rot_letter, rot_letter]
    exact letter_congr u (by omega)
  · rw [rot_of_not_alpha a hc, rot_of_not_alpha b hc]

theorem rot_zero : rot 0 = id := by
  funext c
  obtain ⟨u, i, rfl⟩ | hc := letter_or_not_alpha c
  · exact rot_letter 0 u i
  · exact rot_of_not_alpha 0 hc

theorem rot_bijective (ke : Nat) (h : ke ≤ 25) : Function.Bijective (rot ke) :=
  Function.bijective_iff_has_inverse.mpr
    ⟨rot (26 - ke), rot_rot_cancel (by omega), rot_rot_cancel (by omega)⟩

/-! ### The transformation of a text (R85, R87) -/

/-- Two amounts whose effective shifts cancel give inverse transformations. -/
theorem shiftTransform_cancel {s s' : Word} {dir dir' : Dir} (h : (effShift s dir + effShift s' dir') % 26 = 0)
    (x : List Byte) : shiftTransform (shiftTransform x s dir) s' dir' = x := by
  simp only [shiftTransform, List.map_map, Function.comp_def, rot_rot_cancel h, List.map_id']

/-- The transformation depends on the amount and the direction through the effective shift alone. -/
theorem shiftTransform_congr {s s' : Word} {dir dir' : Dir} (h : effShift s dir = effShift s' dir') (x : List Byte) :
    shiftTransform x s dir = shiftTransform x s' dir' := by
  simp only [shiftTransform, h]

theorem shiftTransform_of_normShift_zero {s : Word} (h : normShift s = 0) (x : List Byte) (dir : Dir) :
    shiftTransform x s dir = x := by
  simp only [shiftTransform, effShift_of_normShift_zero h, rot_zero, List.map_id]

/-- Settles O25: every law is one about `rot` on a letter or on another code, taken over the text. -/
theorem shiftCipherLaws : Obligations.ShiftCipherLaws := by
  refine ⟨fun s x => ⟨?_, ?_⟩, fun s x dir h => shiftTransform_of_normShift_zero h x dir,
    fun ke c _ => ⟨isUpper_rot ke c, isLower_rot ke c⟩, fun ke c h => rot_of_not_alpha ke h, fun s x dir h => ?_,
    rot_bijective⟩
  · exact shiftTransform_cancel (effShift_encrypt_add_decrypt s) x
  · exact shiftTransform_cancel ((congrArg (· % 26) (Nat.add_comm ..)).trans (effShift_encrypt_add_decrypt s)) x
  · exact shiftTransform_congr (effShift_congr (normShift_add_26 h) dir) x

/-! ### The trace (R86) -/

/-- When an entry is due, and its fields, for an index that fits its own. -/
theorem traceEntry?_eq_some {ke : Nat} {c : Byte} {i : Nat} {e : TraceEntry} (hi : i < 2 ^ 15) :
    traceEntry? ke c i = some e ↔
      isAlpha c = true ∧ e.inSym = c ∧ e.outSym = rot ke c ∧ e.pos.toNat = i := by
  have hpos : e.pos.toNat = i ↔ e.pos = BitVec.ofNat 15 i := by
    rw [← BitVec.toNat_inj, BitVec.toNat_ofNat, Nat.mod_eq_of_lt hi]
  obtain ⟨inSym, outSym, pos⟩ := e
  rw [hpos, traceEntry?, Option.ite_none_right_eq_some, Option.some.injEq, eq_comm (b := TraceEntry.mk ..),
    TraceEntry.mk.injEq]

theorem traceEntry?_isSome (ke : Nat) (c : Byte) (i : Nat) : (traceEntry? ke c i).isSome = isAlpha c := by
  unfold traceEntry?
  cases isAlpha c <;> rfl

section
variable {text : List Byte} (s : Word) (dir : Dir)

theorem mem_shiftTrace {e : TraceEntry} :
    e ∈ shiftTrace text s dir ↔ ∃ i c, text[i]? = some c ∧ traceEntry? (effShift s dir) c i = some e := by
  simp only [shiftTrace, List.mem_filterMap, Prod.exists, List.mem_zipIdx_iff_getElem?]
  exact exists_comm

/-- An entry, by its fields: the letter at its index, and what the transformation gives there. -/
theorem mem_shiftTrace_iff (hfit : text.length ≤ 2 ^ 15) {e : TraceEntry} : e ∈ shiftTrace text s dir ↔
    ∃ i c, text[i]? = some c ∧ isAlpha c = true ∧ e.inSym = c ∧
      (shiftTransform text s dir)[i]? = some e.outSym ∧ e.pos.toNat = i := by
  rw [mem_shiftTrace]
  refine exists_congr fun i => exists_congr fun c => and_congr_right fun hc => ?_
  have hi : i < 2 ^ 15 := Nat.lt_of_lt_of_le (List.getElem?_eq_some_iff.mp hc).1 hfit
  have hout : (shiftTransform text s dir)[i]? = some (rot (effShift s dir) c) := by
    simp [shiftTransform, hc]
  rw [traceEntry?_eq_some hi, hout, Option.some.injEq, eq_comm (b := e.outSym)]

theorem shiftTrace_increasing (hfit : text.length ≤ 2 ^ 15) :
    (shiftTrace text s dir).Pairwise (fun a b => a.pos.toNat < b.pos.toNat) := by
  have hindices : text.zipIdx.Pairwise (fun p q => p.2 < q.2) := by
    rw [← List.pairwise_map (f := Prod.snd) (R := (· < ·)), List.zipIdx_map_snd]
    exact List.pairwise_lt_range'
  have hbounded : ∀ p ∈ text.zipIdx, p.2 < 2 ^ 15 := fun p hp =>
    Nat.lt_of_lt_of_le (List.getElem?_eq_some_iff.mp (List.mem_zipIdx_iff_getElem?.mp hp)).1 hfit
  refine List.pairwise_filterMap.mpr (hindices.imp_of_mem fun hp hq hlt a ha b hb => ?_)
  obtain ⟨_, _, _, hpa⟩ := (traceEntry?_eq_some (hbounded _ hp)).mp ha
  obtain ⟨_, _, _, hpb⟩ := (traceEntry?_eq_some (hbounded _ hq)).mp hb
  rw [hpa, hpb]
  exact hlt

theorem shiftTrace_length : (shiftTrace text s dir).length = text.countP isAlpha := by
  calc (shiftTrace text s dir).length
      = text.zipIdx.countP (isAlpha ∘ Prod.fst) := by
        simp only [shiftTrace, List.length_filterMap_eq_countP, traceEntry?_isSome, Function.comp_def]
    _ = text.countP isAlpha := by rw [← List.countP_map, List.zipIdx_map_fst]

end

/-- Settles O26: R6 bounds the text well below the 15-bit index field. -/
theorem traceHasOneEntryPerLetter : Obligations.TraceHasOneEntryPerLetter := by
  intro text s dir hlen
  have hfit : text.length ≤ 2 ^ 15 := by omega
  exact ⟨fun _ => mem_shiftTrace_iff s dir hfit, shiftTrace_increasing s dir hfit, shiftTrace_length s dir,
    shiftTrace_length_le text s dir⟩

/-! ### The shift commands (R89, R90) -/

theorem shiftEnc_word (t sinv : Bool) : 0x00000001#32 ||| ((BitVec.ofBool t).setWidth 32 <<< 7) |||
    ((BitVec.ofBool sinv).setWidth 32 <<< 8) = encode (.shiftEnc t sinv) := by
  revert t sinv; decide

theorem shiftDec_word (t sinv : Bool) : 0x00000021#32 ||| ((BitVec.ofBool t).setWidth 32 <<< 7) |||
    ((BitVec.ofBool sinv).setWidth 32 <<< 8) = encode (.shiftDec t sinv) := by
  revert t sinv; decide

/-- A commit straight after acceptance leaves the finished state. -/
theorem commit_accept (cmd : Cmd) (out : List Byte) (trace : List TraceEntry) (s : State) :
    commit out trace (accept cmd s) = s.finished cmd (accept cmd s).work none out trace := rfl

/-- An error delivered straight after acceptance leaves the finished state with empty results. -/
theorem deliver_accept (cmd : Cmd) (e : Err) (s : State) :
    deliver e (accept cmd s) = s.finished cmd (accept cmd s).work (some e) [] [] := rfl

theorem complete_accept (cmd : Cmd) (s : State) :
    complete (accept cmd s) = conclude (engineResult cmd s.operands) (accept cmd s) := rfl

/-- The completion of a shift command: Overflow, then InvalidShift, then the transformation (R89, R90, R187). -/
theorem complete_accept_shift (dir : Dir) (t sinv : Bool) (s : State) :
    complete (accept ⟨.shift, dir, .ecb, t, sinv⟩ s) =
      let finish := s.finished ⟨.shift, dir, .ecb, t, sinv⟩ (accept ⟨.shift, dir, .ecb, t, sinv⟩ s).work
      if s.ovf then finish (some .overflow) [] []
      else if sinv then finish (some .invalidShift) [] []
      else finish none (shiftTransform s.inBuf s.shift dir) (if t then shiftTrace s.inBuf s.shift dir else []) := by
  have hresult : engineResult ⟨.shift, dir, .ecb, t, sinv⟩ s.operands =
      if s.ovf then .err .overflow else if sinv then .err .invalidShift
      else .ok (shiftTransform s.inBuf s.shift dir) (if t then shiftTrace s.inBuf s.shift dir else []) := rfl
  rw [complete_accept, hresult]
  cases s.ovf
  · cases sinv
    · exact commit_accept ..
    · exact deliver_accept ..
  · exact deliver_accept ..

/-- Settles O42: the word is the encoder's, and acceptance and completion are those of a shift command. -/
theorem shiftEncResult : Obligations.ShiftEncResult := by
  refine ⟨fun h t sinv => ?_, fun s t sinv hb => ?_⟩
  · rw [shiftEnc_word]
    exact decode_encode h (.shiftEnc t sinv)
  · exact ⟨_, _, exec_run rfl rfl hb, rfl, complete_accept_shift .encrypt t sinv s⟩

/-- Settles O43: as O42; the opposite amount has the same effective shift. -/
theorem shiftDecResult : Obligations.ShiftDecResult := by
  refine ⟨fun h t sinv => ?_, fun s t sinv hb => ?_, fun x s s' h => ?_⟩
  · rw [shiftDec_word]
    exact decode_encode h (.shiftDec t sinv)
  · exact ⟨_, _, exec_run rfl rfl hb, rfl, complete_accept_shift .decrypt t sinv s⟩
  · have hamount : effShift s .decrypt = effShift s' .encrypt := h.symm
    exact shiftTransform_congr hamount x

end Sys2Proof.Machine

/-! PROOF. The statements of `41_aes_key_expander.md`: the key schedule with its round keys, and the S-box tables. -/

namespace Sys2Proof.Machine

/-! ### The key schedule (R106) -/

@[simp] theorem expandBy_length (n : Nat) (w : List Word) : (expandBy n w).length = w.length + n := by
  induction n generalizing w with
  | zero => rfl
  | succ n ih =>
    rw [expandBy, ih, List.length_append, List.length_singleton]
    omega

theorem isPrefix_expandBy (n : Nat) (w : List Word) : w <+: expandBy n w := by
  induction n generalizing w with
  | zero => exact List.prefix_refl w
  | succ n ih => exact (List.prefix_append w _).trans (ih _)

theorem getD_of_isPrefix {w w' : List Word} (h : w <+: w') {i : Nat} (hi : i < w.length) :
    w'.getD i 0 = w.getD i 0 := by
  obtain ⟨t, rfl⟩ := h
  exact List.getD_append w t 0 i hi

/-- Word `i` of the schedule depends on the words before it only, so it may be computed from a longer list. -/
theorem nextWord_of_isPrefix {w w' : List Word} (h : w <+: w') {i : Nat} (h4 : 4 ≤ i) (hi : i ≤ w.length) :
    nextWord w' i = nextWord w i := by
  unfold nextWord
  rw [getD_of_isPrefix h (by omega), getD_of_isPrefix h (by omega)]

/-- Every word that the expansion adds is given by the recurrence on the expanded list itself. -/
theorem expandBy_getElem? {n i : Nat} {w : List Word} (h4 : 4 ≤ w.length) (hw : w.length ≤ i)
    (hi : i < w.length + n) : (expandBy n w)[i]? = some (nextWord (expandBy n w) i) := by
  induction n generalizing w with
  | zero => omega
  | succ n ih =>
    rw [expandBy]
    obtain rfl | hlt := Nat.eq_or_lt_of_le hw
    · have hpre := isPrefix_expandBy n (w ++ [nextWord w w.length])
      rw [nextWord_of_isPrefix ((List.prefix_append w _).trans hpre) h4 le_rfl]
      simpa using List.prefix_iff_getElem?.mp hpre w.length (by simp)
    · exact ih (by simp; omega) (by simpa using hlt) (by simp; omega)

theorem keyWords_isPrefix_keyExpand (key : Block) : keyWords key <+: keyExpand key :=
  isPrefix_expandBy 40 (keyWords key)

/-! ### Round keys (R107) -/

@[simp] theorem Column.ofWord_toWord (c : Column) : Column.ofWord c.toWord = c := by
  unfold Column.ofWord Column.toWord
  congr 1
  · iterate 2 refine (BitVec.extractLsb'_append_eq_of_le (by decide)).trans ?_
    exact BitVec.extractLsb'_append_eq_left
  · iterate 2 refine (BitVec.extractLsb'_append_eq_of_le (by decide)).trans ?_
    exact BitVec.extractLsb'_append_eq_right
  · exact (BitVec.extractLsb'_append_eq_of_le (by decide)).trans BitVec.extractLsb'_append_eq_right
  · exact BitVec.extractLsb'_append_eq_right

theorem roundKey_keyWords_zero (key : Block) : roundKey (keyWords key) 0 = key := by
  simp [roundKey, keyWords]

/-- A round key reads four words only, so words appended behind them do not change it. -/
theorem roundKey_of_isPrefix {w w' : List Word} (h : w <+: w') {r : Nat} (hr : 4 * r + 3 < w.length) :
    roundKey w' r = roundKey w r := by
  unfold roundKey
  iterate 4 rw [getD_of_isPrefix h (by omega)]

theorem roundKey_toBytes_getElem? (w : List Word) (r : Nat) {c j : Nat} (hc : c ≤ 3) (hj : j ≤ 3) :
    (roundKey w r).toBytes[4 * c + j]? = some ((w.getD (4 * r + c) 0).extractLsb' (24 - 8 * j) 8) := by
  interval_cases c <;> interval_cases j <;> rfl

/-- Settles O28: the schedule begins with the four words of the key, and each later word is the recurrence's. -/
theorem keyScheduleAndRoundKeys : Obligations.KeyScheduleAndRoundKeys := by
  refine ⟨fun key => ⟨?_, expandBy_length 40 (keyWords key), ?_, fun i h4 hi => ?_⟩,
    fun w r _ _ hc hj => roundKey_toBytes_getElem? w r hc hj⟩
  · exact (roundKey_of_isPrefix (keyWords_isPrefix_keyExpand key) (by simp [keyWords])).trans
      (roundKey_keyWords_zero key)
  · exact (List.prefix_iff_eq_take.mp (keyWords_isPrefix_keyExpand key)).symm
  · exact expandBy_getElem? (w := keyWords key) le_rfl h4 hi

/-! ### The field (R100)

`gmul a b` is the sum of the multiples `xtime^i a` over the bits of `b`. It is linear in `a` and commutes with `xtime`,
and from this its factors on the right can be exchanged. -/

theorem xtime_xor (a b : Byte) : xtime (a ^^^ b) = xtime a ^^^ xtime b := by
  unfold xtime
  rw [BitVec.getLsbD_xor, BitVec.shiftLeft_xor_distrib]
  have hcancel : (a <<< 1 ^^^ 0x1B#8) ^^^ (b <<< 1 ^^^ 0x1B#8) = a <<< 1 ^^^ b <<< 1 ^^^ (0x1B#8 ^^^ 0x1B#8) := by
    ac_rfl
  cases a.getLsbD 7 <;> cases b.getLsbD 7
  · rfl
  · exact BitVec.xor_assoc _ _ _
  · simp only [Bool.xor_false, if_true, Bool.false_eq_true, if_false]
    ac_rfl
  · simpa using hcancel.symm

theorem gmulLoop_xor_left (b : Byte) (is : List Nat) (a a' r r' : Byte) :
    gmulLoop b is (a ^^^ a') (r ^^^ r') = gmulLoop b is a r ^^^ gmulLoop b is a' r' := by
  induction is generalizing a a' r r' with
  | nil => rfl
  | cons i is ih =>
    simp only [gmulLoop, xtime_xor]
    rw [← ih]
    split
    · congr 1
      ac_rfl
    · rfl

theorem gmul_xor_left (a a' b : Byte) : gmul (a ^^^ a') b = gmul a b ^^^ gmul a' b :=
  gmulLoop_xor_left b _ a a' 0 0

@[simp] theorem gmul_zero_left (b : Byte) : gmul 0 b = 0 := by
  simpa using gmul_xor_left 0 0 b

@[simp] theorem gmul_one_left (b : Byte) : gmul 1 b = b := by
  revert b; decide

theorem gmulLoop_xtime (b : Byte) (is : List Nat) (a r : Byte) :
    gmulLoop b is (xtime a) (xtime r) = xtime (gmulLoop b is a r) := by
  induction is generalizing a r with
  | nil => rfl
  | cons i is ih =>
    simp only [gmulLoop, ← ih]
    split
    · rw [xtime_xor]
    · rfl

theorem gmul_xtime_left (a b : Byte) : gmul (xtime a) b = xtime (gmul a b) := gmulLoop_xtime b _ a 0

theorem gmulLoop_gmul (b c : Byte) (is : List Nat) (a r : Byte) :
    gmulLoop b is (gmul a c) (gmul r c) = gmul (gmulLoop b is a r) c := by
  induction is generalizing a r with
  | nil => rfl
  | cons i is ih =>
    simp only [gmulLoop, ← ih, gmul_xtime_left]
    split
    · rw [gmul_xor_left]
    · rfl

theorem gmul_right_comm (a b c : Byte) : gmul (gmul a b) c = gmul (gmul a c) b := by
  have h := gmulLoop_gmul b c [0, 1, 2, 3, 4, 5, 6, 7] a 0
  rw [gmul_zero_left] at h
  exact h.symm

/-! ### The substitution tables (R102, R103) -/

/-- The affine map of R102. -/
def sboxAffine (b : Byte) : Byte :=
  b ^^^ b.rotateLeft 1 ^^^ b.rotateLeft 2 ^^^ b.rotateLeft 3 ^^^ b.rotateLeft 4 ^^^ 0x63#8

/-- The inverse of `sboxAffine`. -/
def sboxAffineInv (y : Byte) : Byte := y.rotateLeft 1 ^^^ y.rotateLeft 3 ^^^ y.rotateLeft 6 ^^^ 0x05#8

/-- The field inverse of a byte, 0 for 0, read off its entry in `SBOX`. -/
def fieldInv (a : Byte) : Byte := sboxAffineInv (sbox a)

theorem sboxAffine_sboxAffineInv (y : Byte) : sboxAffine (sboxAffineInv y) = y := by
  revert y; decide

theorem sbox_eq_sboxAffine_fieldInv (a : Byte) : sbox a = sboxAffine (fieldInv a) :=
  (sboxAffine_sboxAffineInv (sbox a)).symm

theorem gmul_fieldInv {a : Byte} (h : a ≠ 0) : gmul a (fieldInv a) = 1 := by
  revert a; decide

theorem eq_fieldInv_of_gmul_eq_one {a b : Byte} (h : gmul a b = 1) : b = fieldInv a := by
  have ha : a ≠ 0 := by
    rintro rfl
    exact absurd ((gmul_zero_left b).symm.trans h) (by decide)
  calc b = gmul (gmul a (fieldInv a)) b := by rw [gmul_fieldInv ha, gmul_one_left]
    _ = gmul (gmul a b) (fieldInv a) := gmul_right_comm a (fieldInv a) b
    _ = fieldInv a := by rw [h, gmul_one_left]

@[simp] theorem invSbox_sbox (x : Byte) : invSbox (sbox x) = x := by
  revert x; decide

theorem sbox_bijective : Function.Bijective sbox :=
  Finite.injective_iff_bijective.mp (Function.LeftInverse.injective invSbox_sbox)

@[simp] theorem sbox_invSbox (x : Byte) : sbox (invSbox x) = x :=
  Function.LeftInverse.rightInverse_of_surjective invSbox_sbox sbox_bijective.surjective x

theorem sbox_ne_self (a : Byte) : sbox a ≠ a := by
  revert a; decide

/-- Settles O27: a field inverse is unique, so it is `fieldInv`, whose affine image is the table's entry. -/
theorem sboxTables : Obligations.SboxTables := by
  refine ⟨fun a b h => ?_, fun a ha => ⟨fieldInv a, gmul_fieldInv ha⟩, sbox_bijective, sbox_ne_self,
    fun x => ⟨invSbox_sbox x, sbox_invSbox x⟩⟩
  obtain ⟨rfl, rfl⟩ | hinv := h
  · rfl
  · rw [eq_fieldInv_of_gmul_eq_one hinv]
    exact sbox_eq_sboxAffine_fieldInv a

end Sys2Proof.Machine

/-! PROOF. The statements of `42_aes_state_machine.md`: the round transformations and the block functions undo each
other, and the reference sequence gives the result of `Exec`. -/

namespace Sys2Proof.Machine

/-! ### ShiftRows (R118) -/

theorem shiftRows_toBytes_getElem? (s : Block) {r c : Nat} (hr : r ≤ 3) (hc : c ≤ 3) :
    (shiftRows s).toBytes[r + 4 * c]? = s.toBytes[r + 4 * ((c + r) % 4)]? := by
  interval_cases r <;> interval_cases c <;> rfl

theorem invShiftRows_toBytes_getElem? (s : Block) {r c : Nat} (hr : r ≤ 3) (hc : c ≤ 3) :
    (invShiftRows s).toBytes[r + 4 * c]? = s.toBytes[r + 4 * ((c + 4 - r) % 4)]? := by
  interval_cases r <;> interval_cases c <;> rfl

@[simp] theorem invShiftRows_shiftRows (s : Block) : invShiftRows (shiftRows s) = s := rfl

@[simp] theorem shiftRows_invShiftRows (s : Block) : shiftRows (invShiftRows s) = s := rfl

/-- Settles O29: both index formulas byte by byte; the permutations undo each other definitionally. -/
theorem shiftRowsPermutesBytes : Obligations.ShiftRowsPermutesBytes := fun s =>
  ⟨fun _ _ hr hc => ⟨shiftRows_toBytes_getElem? s hr hc, invShiftRows_toBytes_getElem? s hr hc⟩,
    invShiftRows_shiftRows s, shiftRows_invShiftRows s⟩

/-! ### AddRoundKey and SubBytes (R116, R117) -/

theorem Column.xor_xor_cancel_right (a b : Column) : (a.xor b).xor b = a := by
  simp [Column.xor]

theorem Block.xor_xor_cancel_right (a b : Block) : (a.xor b).xor b = a := by
  simp [Block.xor, Column.xor_xor_cancel_right]

@[simp] theorem addRoundKey_addRoundKey (s k : Block) : addRoundKey (addRoundKey s k) k = s :=
  Block.xor_xor_cancel_right s k

@[simp] theorem invSubBytes_subBytes (s : Block) : invSubBytes (subBytes s) = s := by
  simp [invSubBytes, subBytes, Block.mapColumns, Column.map]

@[simp] theorem subBytes_invSubBytes (s : Block) : subBytes (invSubBytes s) = s := by
  simp [invSubBytes, subBytes, Block.mapColumns, Column.map]

/-! ### MixColumns (R119)

The product of two circulant matrices is the circulant matrix of the cyclic convolution of their first rows; for the
two matrices of R119 that row is `01 00 00 00`. -/

theorem gmulLoop_xor_right (b b' : Byte) (is : List Nat) (a r r' : Byte) :
    gmulLoop (b ^^^ b') is a (r ^^^ r') = gmulLoop b is a r ^^^ gmulLoop b' is a r' := by
  induction is generalizing a r r' with
  | nil => rfl
  | cons i is ih =>
    simp only [gmulLoop, BitVec.getLsbD_xor]
    rw [← ih]
    congr 1
    cases b.getLsbD i <;> cases b'.getLsbD i
    · rfl
    · exact BitVec.xor_assoc r r' a
    · simp only [Bool.xor_false, if_true, Bool.false_eq_true, if_false]
      ac_rfl
    · have hcancel : (r ^^^ a) ^^^ (r' ^^^ a) = r ^^^ r' ^^^ (a ^^^ a) := by ac_rfl
      simpa using hcancel.symm

theorem gmul_xor_right (a b b' : Byte) : gmul a (b ^^^ b') = gmul a b ^^^ gmul a b' :=
  gmulLoop_xor_right b b' _ a 0 0

theorem gmul_comm (a b : Byte) : gmul a b = gmul b a := by
  have h := gmul_right_comm 1 a b
  rwa [gmul_one_left, gmul_one_left] at h

theorem gmul_gmul (a b c : Byte) : gmul a (gmul b c) = gmul (gmul a b) c := by
  rw [gmul_comm a, gmul_right_comm, gmul_comm b]

theorem circulant_circulant (m0 m1 m2 m3 n0 n1 n2 n3 : Byte) (a : Column) :
    circulant m0 m1 m2 m3 (circulant n0 n1 n2 n3 a) =
      circulant (gmul m0 n0 ^^^ gmul m1 n3 ^^^ gmul m2 n2 ^^^ gmul m3 n1)
        (gmul m0 n1 ^^^ gmul m1 n0 ^^^ gmul m2 n3 ^^^ gmul m3 n2)
        (gmul m0 n2 ^^^ gmul m1 n1 ^^^ gmul m2 n0 ^^^ gmul m3 n3)
        (gmul m0 n3 ^^^ gmul m1 n2 ^^^ gmul m2 n1 ^^^ gmul m3 n0) a := by
  simp only [circulant, gmul_xor_right, gmul_xor_left, gmul_gmul, Column.mk.injEq]
  refine ⟨?_, ?_, ?_, ?_⟩ <;> ac_rfl

theorem circulant_one (a : Column) : circulant 1 0 0 0 a = a := by
  simp only [circulant, gmul_one_left, gmul_zero_left]
  simp

@[simp] theorem invMixColumn_mixColumn (a : Column) : invMixColumn (mixColumn a) = a :=
  (circulant_circulant ..).trans (circulant_one a)

@[simp] theorem mixColumn_invMixColumn (a : Column) : mixColumn (invMixColumn a) = a :=
  (circulant_circulant ..).trans (circulant_one a)

@[simp] theorem invMixColumns_mixColumns (s : Block) : invMixColumns (mixColumns s) = s := by
  simp [invMixColumns, mixColumns, Block.mapColumns]

@[simp] theorem mixColumns_invMixColumns (s : Block) : mixColumns (invMixColumns s) = s := by
  simp [invMixColumns, mixColumns, Block.mapColumns]

/-- Settles O30: byte by byte for AddRoundKey and SubBytes, column by column for MixColumns. -/
theorem roundTransformationsInvert : Obligations.RoundTransformationsInvert := fun s k =>
  ⟨addRoundKey_addRoundKey s k, invSubBytes_subBytes s, subBytes_invSubBytes s, invMixColumns_mixColumns s,
    mixColumns_invMixColumns s⟩

/-! ### The block functions (R122)

A decryption round does not undo an encryption round on the same state, because it begins with the substitution and
the permutation: it undoes the round on states that both have been carried through those two. -/

/-- SubBytes and ShiftRows, with which every round of encryption begins (R120). -/
def substitutePermute (s : Block) : Block := shiftRows (subBytes s)

/-- InvShiftRows and InvSubBytes, with which every round of decryption begins (R121). -/
def invSubstitutePermute (s : Block) : Block := invSubBytes (invShiftRows s)

@[simp] theorem invSubstitutePermute_substitutePermute (s : Block) :
    invSubstitutePermute (substitutePermute s) = s := by
  simp [invSubstitutePermute, substitutePermute]

@[simp] theorem substitutePermute_invSubstitutePermute (s : Block) :
    substitutePermute (invSubstitutePermute s) = s := by
  simp [invSubstitutePermute, substitutePermute]

theorem decRound_encRound (w : List Word) (s : Block) (n : Nat) :
    decRound w (substitutePermute (encRound w s n)) n = substitutePermute s := by
  simp [decRound, encRound, substitutePermute]

theorem encRound_decRound (w : List Word) (s : Block) (n : Nat) :
    encRound w (invSubstitutePermute (decRound w s n)) n = invSubstitutePermute s := by
  simp [encRound, decRound, invSubstitutePermute]

/-- If `g` undoes `f` on states carried through `h`, then the rounds `g` in reverse order undo the rounds `f`. -/
theorem foldl_reverse_cancel {α ι : Type} {f g : α → ι → α} {h : α → α}
    (hround : ∀ a n, g (h (f a n)) n = h a) (ns : List ι) (a : α) :
    ns.reverse.foldl g (h (ns.foldl f a)) = h a := by
  induction ns generalizing a with
  | nil => rfl
  | cons n ns ih => simp only [List.reverse_cons, List.foldl_append, List.foldl_cons, List.foldl_nil, ih, hround]

theorem encFinal_eq (w : List Word) (s : Block) :
    encFinal w s = addRoundKey (substitutePermute s) (roundKey w 10) := rfl

theorem decFinal_eq (w : List Word) (s : Block) :
    decFinal w s = addRoundKey (invSubstitutePermute s) (roundKey w 0) := rfl

theorem decryptBlock_encryptBlock (w : List Word) (b : Block) : decryptBlock w (encryptBlock w b) = b := by
  have hrounds := foldl_reverse_cancel (decRound_encRound w) [1, 2, 3, 4, 5, 6, 7, 8, 9]
    (addRoundKey b (roundKey w 0))
  rw [show [1, 2, 3, 4, 5, 6, 7, 8, 9].reverse = [9, 8, 7, 6, 5, 4, 3, 2, 1] from rfl] at hrounds
  rw [decryptBlock, encryptBlock, encFinal_eq, addRoundKey_addRoundKey, hrounds, decFinal_eq,
    invSubstitutePermute_substitutePermute, addRoundKey_addRoundKey]

theorem encryptBlock_decryptBlock (w : List Word) (b : Block) : encryptBlock w (decryptBlock w b) = b := by
  have hrounds := foldl_reverse_cancel (encRound_decRound w) [9, 8, 7, 6, 5, 4, 3, 2, 1]
    (addRoundKey b (roundKey w 10))
  rw [show [9, 8, 7, 6, 5, 4, 3, 2, 1].reverse = [1, 2, 3, 4, 5, 6, 7, 8, 9] from rfl] at hrounds
  rw [encryptBlock, decryptBlock, decFinal_eq, addRoundKey_addRoundKey, hrounds, encFinal_eq,
    substitutePermute_invSubstitutePermute, addRoundKey_addRoundKey]

/-- Settles O31: the last round and the key addition before the rounds cancel around the rounds. -/
theorem blockCipherRoundTrip : Obligations.BlockCipherRoundTrip := fun w b =>
  ⟨decryptBlock_encryptBlock w b, encryptBlock_decryptBlock w b⟩

/-! ### The reference sequence (R124)

`FinishesIn` is what R124 asks of one sequence. It is proved from S_COMMIT backwards: each lemma below takes what
follows a phase as its premise and puts the phase in front. -/

/-- From `wk`, S_COMMIT is reached after `n` micro-steps and not before, with the result `r`. -/
def FinishesIn (cmd : Cmd) (ops : Operands) (n : Nat) (wk : Work) (r : Result) : Prop :=
  (microSteps cmd ops n wk).seq = .commit ∧ workResult cmd (microSteps cmd ops n wk) = r ∧
    ∀ k, k < n → (microSteps cmd ops k wk).seq ≠ .commit

section
variable {cmd : Cmd} {ops : Operands} {wk : Work} {r : Result} {n : Nat}

theorem finishesIn_commit (h : wk.seq = .commit) : FinishesIn cmd ops 0 wk (workResult cmd wk) :=
  ⟨h, rfl, fun _ hk => absurd hk (Nat.not_lt_zero _)⟩

theorem FinishesIn.step {wk' : Work} (h : wk.seq ≠ .commit) (hstep : microStep cmd ops wk = wk')
    (hrest : FinishesIn cmd ops n wk' r) : FinishesIn cmd ops (n + 1) wk r := by
  subst hstep
  obtain ⟨hseq, hres, hbefore⟩ := hrest
  refine ⟨hseq, hres, fun k hk => ?_⟩
  cases k with
  | zero => exact h
  | succ k => exact hbefore k (Nat.lt_of_succ_lt_succ hk)

theorem finishesIn_workFail (e : Err) : FinishesIn cmd ops 0 (workFail e wk) (.err e) := finishesIn_commit rfl

/-! #### One micro-step, by the state of the sequence -/

section
variable {i j : Nat} (cmd) (ops)

theorem microStep_validate (h : wk.seq = .validate) : microStep cmd ops wk = microValidate cmd ops wk := by
  rw [microStep, h]

theorem microStep_shift (h : wk.seq = .shift i) : microStep cmd ops wk = microShift cmd ops wk i := by
  rw [microStep, h]

theorem microStep_keyExp (h : wk.seq = .keyExp i) : microStep cmd ops wk = microKeyExp cmd wk i := by
  rw [microStep, h]

theorem microStep_load (h : wk.seq = .load j) : microStep cmd ops wk = microLoad cmd wk j := by
  rw [microStep, h]

theorem microStep_round (h : wk.seq = .round j n) : microStep cmd ops wk = microRound cmd wk j n := by
  rw [microStep, h]

theorem microStep_store (h : wk.seq = .store j) : microStep cmd ops wk = microStore cmd wk j := by
  rw [microStep, h]

theorem microStep_unpad (h : wk.seq = .unpad) : microStep cmd ops wk = microUnpad wk := by
  rw [microStep, h]

end

/-! #### S_SHIFT -/

/-- The trace a shift command makes of the characters `cs` from index `i` on. -/
def traceFrom (t : Bool) (ke : Nat) (cs : List Byte) (i : Nat) : List TraceEntry :=
  if t then (cs.zipIdx i).filterMap fun p => traceEntry? ke p.1 p.2 else []

theorem traceFrom_cons (t : Bool) (ke : Nat) (c : Byte) (cs : List Byte) (i : Nat) :
    traceFrom t ke (c :: cs) i =
      (if t then (traceEntry? ke c i).toList else []) ++ traceFrom t ke cs (i + 1) := by
  cases t with
  | false => rfl
  | true =>
    simp only [traceFrom, if_true, List.zipIdx_cons, List.filterMap_cons]
    cases traceEntry? ke c i <;> rfl

/-- The characters from index `i` on take one step each. -/
theorem finishesIn_shift (halg : cmd.alg = .shift) {cs : List Byte} {i : Nat} (hcs : ops.text.drop i = cs)
    (hseq : wk.seq = shiftSeq ops.text.length i) (herr : wk.err = none) :
    FinishesIn cmd ops cs.length wk
      (.ok (wk.out ++ cs.map (rot wk.ke.toNat)) (wk.trace ++ traceFrom cmd.t wk.ke.toNat cs i)) := by
  induction cs generalizing wk i with
  | nil =>
    have hlen : ¬ i < ops.text.length := by simpa using hcs
    have hcommit : wk.seq = .commit := by rw [hseq, shiftSeq, if_neg hlen]
    have hres : workResult cmd wk = .ok wk.out wk.trace := by simp [workResult, herr, halg]
    simpa [traceFrom, hres] using finishesIn_commit (cmd := cmd) (ops := ops) hcommit
  | cons c cs ih =>
    have hlt : i < ops.text.length := by
      by_contra hge
      simp [List.drop_eq_nil_of_le (Nat.le_of_not_lt hge)] at hcs
    rw [List.drop_eq_getElem_cons hlt, List.cons.injEq] at hcs
    obtain ⟨hc, hcs⟩ := hcs
    have hshift : wk.seq = .shift i := by rw [hseq, shiftSeq, if_pos hlt]
    have hget : ops.text.getD i 0 = c := by rw [List.getD_eq_getElem _ _ hlt, hc]
    have hout : (microShift cmd ops wk i).out = wk.out ++ [rot wk.ke.toNat c] := by simp only [microShift, hget]
    have htrace : (microShift cmd ops wk i).trace =
        wk.trace ++ (if cmd.t then (traceEntry? wk.ke.toNat c i).toList else []) := by
      simp only [microShift, hget]
      cases cmd.t <;> simp
    have hrest := ih (wk := microShift cmd ops wk i) hcs rfl herr
    rw [hout, htrace, List.append_assoc, List.append_assoc] at hrest
    rw [traceFrom_cons]
    exact .step (by simp [hshift]) (microStep_shift cmd ops hshift) hrest

/-! #### S_KEYEXP -/

/-- S_KEYEXP on the next word of the schedule, or the first block's state when there are 44. -/
def keySeq (cmd : Cmd) (blocks len : Nat) : Seq := if len < 44 then .keyExp len else blockSeq cmd blocks 0

/-- The words that are missing take one step each. -/
theorem finishesIn_keyExp {k : Nat} (hlen : wk.w.length + k = 44)
    (hseq : wk.seq = keySeq cmd (wk.msg.length / 16) wk.w.length)
    (hrest : FinishesIn cmd ops n { wk with seq := blockSeq cmd (wk.msg.length / 16) 0, w := expandBy k wk.w } r) :
    FinishesIn cmd ops (n + k) wk r := by
  induction k generalizing wk with
  | zero =>
    have hdone : wk.seq = blockSeq cmd (wk.msg.length / 16) 0 := by rw [hseq, keySeq, if_neg (by omega)]
    rw [← hdone] at hrest
    exact hrest
  | succ k ih =>
    have hkey : wk.seq = .keyExp wk.w.length := by rw [hseq, keySeq, if_pos (by omega)]
    have hlen' : (microKeyExp cmd wk wk.w.length).w.length = wk.w.length + 1 := List.length_append
    have hseq' : (microKeyExp cmd wk wk.w.length).seq =
        keySeq cmd (wk.msg.length / 16) (microKeyExp cmd wk wk.w.length).w.length := by
      rw [hlen']
      rfl
    exact .step (by simp [hkey]) (microStep_keyExp cmd ops hkey) (ih (by omega) hseq' hrest)

/-! #### S_LOAD, S_ROUND and S_STORE -/

/-- The rounds from `m` to 10 take one step each. -/
theorem finishesIn_rounds {j m k : Nat} (hm : m + k = 10) (hseq : wk.seq = .round j m)
    (hrest : FinishesIn cmd ops n
      { wk with seq := .store j, st := (List.range' m (k + 1)).foldl (roundState cmd.dir wk.w) wk.st } r) :
    FinishesIn cmd ops (n + (k + 1)) wk r := by
  refine .step (by simp [hseq]) (microStep_round cmd ops hseq) ?_
  induction k generalizing wk m with
  | zero =>
    rw [microRound, if_neg (by omega)]
    exact hrest
  | succ k ih =>
    have hnext : (microRound cmd wk j m).seq = .round j (m + 1) := by rw [microRound, if_pos (by omega)]
    exact .step (by simp [hnext]) (microStep_round cmd ops hnext) (ih (by omega) hnext hrest)

/-- The block function of a direction (R120, R121). -/
def cipherBlock : Dir → List Word → Block → Block
  | .encrypt => encryptBlock
  | .decrypt => decryptBlock

theorem foldl_roundState (dir : Dir) (w : List Word) (b : Block) :
    (List.range' 0 11).foldl (roundState dir w) b = cipherBlock dir w b := by
  cases dir with
  | encrypt => simp [List.range', roundState, cipherBlock, encryptBlock]
  | decrypt => simp [List.range', roundState, cipherBlock, decryptBlock]

/-- What S_LOAD puts into the state register for block `b` (R145). -/
def loadBlock (cmd : Cmd) (chain b : Block) : Block :=
  if cmd.mode = .cbc ∧ cmd.dir = .encrypt then b.xor chain else b

/-- What S_STORE puts out for the state register `st` (R145). -/
def storeBlock (cmd : Cmd) (chain st : Block) : Block :=
  if cmd.mode = .cbc ∧ cmd.dir = .decrypt then st.xor chain else st

/-- The ciphertext block, which is the chain for the next block (R145). -/
def nextChain (dir : Dir) (st b : Block) : Block :=
  match dir with
  | .encrypt => st
  | .decrypt => b

/-- The result blocks of the sequence from the chaining block on, in every mode. -/
def cipherBlocks (cmd : Cmd) (w : List Word) : Block → List Block → List Block
  | _, [] => []
  | chain, b :: bs =>
    storeBlock cmd chain (cipherBlock cmd.dir w (loadBlock cmd chain b)) ::
      cipherBlocks cmd w (nextChain cmd.dir (cipherBlock cmd.dir w (loadBlock cmd chain b)) b) bs

/-- The working storage after S_STORE(j), from the one before S_LOAD(j). -/
def blockDone (cmd : Cmd) (wk : Work) (j : Nat) : Work :=
  let st := cipherBlock cmd.dir wk.w (loadBlock cmd wk.chain (workBlock wk j))
  { wk with
    seq := blockSeq cmd (wk.msg.length / 16) (j + 1)
    st := st
    out := wk.out ++ (storeBlock cmd wk.chain st).toBytes
    chain := nextChain cmd.dir st (workBlock wk j) }

/-- One block takes 13 steps. -/
theorem finishesIn_block {j : Nat} (hseq : wk.seq = .load j) (hrest : FinishesIn cmd ops n (blockDone cmd wk j) r) :
    FinishesIn cmd ops (n + 13) wk r := by
  refine .step (n := n + 12) (by simp [hseq]) (microStep_load cmd ops hseq) ?_
  refine finishesIn_rounds (n := n + 1) (m := 0) (k := 10) rfl rfl ?_
  refine .step nofun (microStep_store cmd ops rfl) ?_
  rw [foldl_roundState]
  exact hrest

/-! #### S_UNPAD -/

/-- What S_UNPAD makes of the result bytes, in the only mode that has it. -/
def unpadOutput (cmd : Cmd) (out : List Byte) : Option (List Byte) :=
  if cmd.mode = .cbc ∧ cmd.dir = .decrypt then unpad out else some out

/-- The number of steps S_UNPAD takes. -/
def unpadSteps (cmd : Cmd) : Nat := if cmd.mode = .cbc ∧ cmd.dir = .decrypt then 1 else 0

/-- The result of an AES command from its bytes, where the padding is good (R146). -/
def cipherResult : Option (List Byte) → Result
  | none => .err .padding
  | some out => .ok (hexEncode out) []

theorem workResult_aes (halg : cmd.alg = .aes) (herr : wk.err = none) :
    workResult cmd wk = cipherResult (some wk.out) := by
  simp [workResult, herr, halg, cipherResult]

/-- After the last block only the unpadding is left. -/
theorem finishesIn_unpad (halg : cmd.alg = .aes) (herr : wk.err = none) {m : Nat} (hseq : wk.seq = blockSeq cmd m m) :
    FinishesIn cmd ops (unpadSteps cmd) wk (cipherResult (unpadOutput cmd wk.out)) := by
  rw [blockSeq, if_neg (Nat.lt_irrefl m)] at hseq
  unfold unpadSteps unpadOutput
  split
  · next hmode =>
    have hunpad : wk.seq = .unpad := by rw [hseq, if_pos hmode]
    refine .step (by simp [hunpad]) (microStep_unpad cmd ops hunpad) ?_
    unfold microUnpad
    cases unpad wk.out with
    | none => exact finishesIn_workFail .padding
    | some out =>
      have hres := workResult_aes (wk := { wk with seq := .commit, out := out }) halg herr
      exact hres ▸ finishesIn_commit rfl
  · next hmode =>
    have hcommit : wk.seq = .commit := by rw [hseq, if_neg hmode]
    exact workResult_aes halg herr ▸ finishesIn_commit hcommit

/-! #### All blocks -/

theorem Block.ofBytes_take (bs : List Byte) : Block.ofBytes (bs.take 16) = Block.ofBytes bs := by
  simp [Block.ofBytes, Column.ofBytes]

/-- The blocks from index `j` on take 13 steps each, and the unpadding follows. -/
theorem finishesIn_blocks (halg : cmd.alg = .aes) (herr : wk.err = none) {j k : Nat}
    (hk : j + k = wk.msg.length / 16) (hseq : wk.seq = blockSeq cmd (wk.msg.length / 16) j) :
    FinishesIn cmd ops (unpadSteps cmd + 13 * k) wk (cipherResult (unpadOutput cmd
      (wk.out ++ joinBlocks (cipherBlocks cmd wk.w wk.chain (takeBlocks k (wk.msg.drop (16 * j))))))) := by
  induction k generalizing wk j with
  | zero =>
    rw [← hk] at hseq
    simpa [takeBlocks, cipherBlocks, joinBlocks] using finishesIn_unpad (ops := ops) halg herr hseq
  | succ k ih =>
    have hload : wk.seq = .load j := by rw [hseq, blockSeq, if_pos (by omega)]
    have hrest := ih (wk := blockDone cmd wk j) herr (j := j + 1) (by simp only [blockDone]; omega) rfl
    have hdrop : (wk.msg.drop (16 * j)).drop 16 = wk.msg.drop (16 * (j + 1)) := by rw [List.drop_drop, Nat.mul_succ]
    refine finishesIn_block hload ?_
    rw [takeBlocks, Block.ofBytes_take, hdrop]
    simpa [blockDone, cipherBlocks, joinBlocks, workBlock] using hrest

end

/-! #### The modes (R144, R145) -/

section
variable {cmd : Cmd} {ops : Operands} {wk : Work}

theorem cipherBlocks_ecb (hm : cmd.mode = .ecb) (w : List Word) (chain : Block) (bs : List Block) :
    cipherBlocks cmd w chain bs = bs.map (cipherBlock cmd.dir w) := by
  induction bs generalizing chain with
  | nil => rfl
  | cons b bs ih => simp [cipherBlocks, ih, loadBlock, storeBlock, hm]

theorem cipherBlocks_cbc_encrypt (hm : cmd.mode = .cbc) (hd : cmd.dir = .encrypt) (w : List Word) (chain : Block)
    (bs : List Block) : cipherBlocks cmd w chain bs = cbcEncryptBlocks w chain bs := by
  induction bs generalizing chain with
  | nil => rfl
  | cons b bs ih => simp [cipherBlocks, ih, loadBlock, storeBlock, nextChain, cipherBlock, cbcEncryptBlocks, hm, hd]

theorem cipherBlocks_cbc_decrypt (hm : cmd.mode = .cbc) (hd : cmd.dir = .decrypt) (w : List Word) (chain : Block)
    (bs : List Block) : cipherBlocks cmd w chain bs = cbcDecryptBlocks w chain bs := by
  induction bs generalizing chain with
  | nil => rfl
  | cons b bs ih => simp [cipherBlocks, ih, loadBlock, storeBlock, nextChain, cipherBlock, cbcDecryptBlocks, hm, hd]

/-- The cipher work of R146 in the form of the reference sequence. -/
theorem aesCipher_eq (cmd : Cmd) (w : List Word) (db : List Byte) (iv : Block) :
    aesCipher cmd.dir cmd.mode w db iv =
      unpadOutput cmd (joinBlocks (cipherBlocks cmd w iv (toBlocks (message cmd db)))) := by
  cases hm : cmd.mode with
  | ecb =>
    rw [cipherBlocks_ecb hm]
    cases hd : cmd.dir <;> simp [aesCipher, unpadOutput, message, hm, ecbEncrypt, ecbDecrypt, cipherBlock]
  | cbc =>
    cases hd : cmd.dir with
    | encrypt =>
      rw [cipherBlocks_cbc_encrypt hm hd]
      simp [aesCipher, unpadOutput, message, hm, hd, cbcEncrypt]
    | decrypt =>
      rw [cipherBlocks_cbc_decrypt hm hd]
      simp [aesCipher, unpadOutput, message, hm, hd, cbcDecrypt]

/-! #### The whole sequence -/

theorem aesResult_error {e : Err} (h : aesCheck cmd.dir cmd.mode ops.key ops.text = .error e) :
    aesResult cmd ops = .err e := by
  simp [aesResult, aesRun, h]

theorem aesResult_checked {key : Block} {db : List Byte}
    (h : aesCheck cmd.dir cmd.mode ops.key ops.text = .ok (key, db)) :
    aesResult cmd ops = cipherResult (aesCipher cmd.dir cmd.mode (keyExpand key) db ops.iv) := by
  unfold aesResult aesRun
  rw [h]
  cases hc : aesCipher cmd.dir cmd.mode (keyExpand key) db ops.iv <;> simp [hc, cipherResult]

theorem effShift_lt (s : Word) (dir : Dir) : effShift s dir < 26 := by
  cases dir with
  | encrypt => exact normShift_lt s
  | decrypt => exact Nat.mod_lt _ (by decide)

theorem FinishesIn.validate {n : Nat} {r : Result} (hv : wk.seq = .validate)
    (hrest : FinishesIn cmd ops n (microValidate cmd ops wk) r) : FinishesIn cmd ops (n + 1) wk r :=
  .step (by simp [hv]) (microStep_validate cmd ops hv) hrest

/-- A shift command from S_VALIDATE on, once OVF is known to be 0. -/
theorem finishesIn_validate_shift (hv : wk.seq = .validate) (hovf : ops.ovf = false) (halg : cmd.alg = .shift) :
    FinishesIn cmd ops (referenceSteps cmd ops) wk (shiftResult cmd ops) := by
  cases hsinv : cmd.sinv with
  | true =>
    have hsteps : referenceSteps cmd ops = 0 + 1 := by simp [referenceSteps, hovf, halg, hsinv]
    have hres : shiftResult cmd ops = .err .invalidShift := by simp [shiftResult, hsinv]
    rw [hsteps, hres]
    refine .validate hv ?_
    simpa [microValidate, hovf, halg, hsinv] using finishesIn_workFail .invalidShift
  | false =>
    have hsteps : referenceSteps cmd ops = ops.text.length + 1 := by
      simp [referenceSteps, hovf, halg, hsinv, Nat.add_comm]
    have hke : (BitVec.ofNat 5 (effShift ops.shift cmd.dir)).toNat = effShift ops.shift cmd.dir :=
      Nat.mod_eq_of_lt ((effShift_lt _ _).trans (by decide))
    rw [hsteps]
    refine .validate hv ?_
    have hrest := finishesIn_shift (ops := ops) (i := 0) (wk := microValidate cmd ops wk) halg rfl
      (by simp [microValidate, hovf, halg, hsinv]) (by simp [microValidate, hovf, halg, hsinv])
    simpa [microValidate, hovf, halg, hsinv, hke, shiftResult, shiftTransform, traceFrom, shiftTrace] using hrest

/-- An AES command from S_VALIDATE on, once OVF is known to be 0. -/
theorem finishesIn_validate_aes (hv : wk.seq = .validate) (hovf : ops.ovf = false) (halg : cmd.alg = .aes) :
    FinishesIn cmd ops (referenceSteps cmd ops) wk (aesResult cmd ops) := by
  cases hcheck : aesCheck cmd.dir cmd.mode ops.key ops.text with
  | error e =>
    have hsteps : referenceSteps cmd ops = 0 + 1 := by simp [referenceSteps, hovf, halg, hcheck]
    rw [hsteps, aesResult_error hcheck]
    refine .validate hv ?_
    simpa [microValidate, hovf, halg, hcheck] using finishesIn_workFail e
  | ok operands =>
    obtain ⟨key, db⟩ := operands
    have hsteps : referenceSteps cmd ops = unpadSteps cmd + 13 * ((message cmd db).length / 16) + 40 + 1 := by
      simp only [referenceSteps, hovf, halg, hcheck, unpadSteps, Bool.false_eq_true, if_false]
      omega
    rw [hsteps, aesResult_checked hcheck, aesCipher_eq]
    refine .validate hv ?_
    simp only [microValidate, hovf, halg, hcheck, Bool.false_eq_true, if_false]
    refine finishesIn_keyExp rfl rfl ?_
    refine finishesIn_blocks (j := 0) (k := (message cmd db).length / 16) halg ?_ ?_ ?_
    exacts [rfl, Nat.zero_add _, rfl]

theorem finishesIn_engineResult (hv : wk.seq = .validate) :
    FinishesIn cmd ops (referenceSteps cmd ops) wk (engineResult cmd ops) := by
  cases hovf : ops.ovf with
  | true =>
    have hsteps : referenceSteps cmd ops = 0 + 1 := by simp [referenceSteps, hovf]
    have hres : engineResult cmd ops = .err .overflow := by simp [engineResult, hovf]
    rw [hsteps, hres]
    refine .validate hv ?_
    simpa [microValidate, hovf] using finishesIn_workFail .overflow
  | false =>
    cases halg : cmd.alg with
    | shift => simpa [engineResult, hovf, halg] using finishesIn_validate_shift hv hovf halg
    | aes => simpa [engineResult, hovf, halg] using finishesIn_validate_aes hv hovf halg

end

/-- Settles O55: phase by phase from S_VALIDATE; the leftover of the working storage is overwritten there. -/
theorem referenceSequenceRefinesExec : Obligations.ReferenceSequenceRefinesExec :=
  fun _ _ _ hv => finishesIn_engineResult hv

end Sys2Proof.Machine

/-! PROOF. The statements of `43_aes_mode_wrapper.md`: the hex codec, the padding, the two modes, the laws of a
whole AES operation, and the four AES commands from acceptance to completion. -/

namespace Sys2Proof.Machine

/-! ### Hex digits (R62, R136, R137) -/

theorem hexVal_eq_some_iff (c : Byte) (v : BitVec 4) : hexVal c = some v ↔
    (0x30 ≤ c.toNat ∧ c.toNat ≤ 0x39 ∧ c.toNat = v.toNat + 0x30) ∨
    (0x41 ≤ c.toNat ∧ c.toNat ≤ 0x46 ∧ c.toNat = v.toNat + 0x37) ∨
    (0x61 ≤ c.toNat ∧ c.toNat ≤ 0x66 ∧ c.toNat = v.toNat + 0x57) := by
  have hv := v.isLt
  have hvalue (n : Nat) : some (BitVec.ofNat 4 n) = some v ↔ n % 16 = v.toNat := by
    rw [Option.some_inj, ← BitVec.toNat_inj, BitVec.toNat_ofNat]
  unfold hexVal
  split_ifs
  · rw [hvalue]; omega
  · rw [hvalue]; omega
  · rw [hvalue]; omega
  · simp only [false_iff]; omega

@[simp] theorem hexVal_hexDigit (v : BitVec 4) : hexVal (hexDigit v) = some v := by
  revert v; decide

/-- The digit written for the value of a digit is that digit in lower case. -/
theorem hexDigit_of_hexVal {c : Byte} {v : BitVec 4} (h : hexVal c = some v) : hexDigit v = lowerDigit c := by
  have hv := v.isLt
  rw [hexVal_eq_some_iff] at h
  apply BitVec.eq_of_toNat_eq
  unfold hexDigit lowerDigit
  split <;> split <;> simp only [BitVec.toNat_ofNat, BitVec.toNat_add, BitVec.reduceToNat] <;> omega

theorem lowerDigit_of_not_upper {c : Byte} (h : ¬(0x41 ≤ c.toNat ∧ c.toNat ≤ 0x46)) : lowerDigit c = c := if_neg h

theorem map_lowerDigit_of_not_upper {cs : List Byte} (h : ∀ c ∈ cs, ¬(0x41 ≤ c.toNat ∧ c.toNat ≤ 0x46)) :
    cs.map lowerDigit = cs :=
  (List.map_congr_left fun c hc => lowerDigit_of_not_upper (h c hc)).trans (List.map_id cs)

/-! ### A byte and its two nibbles -/

theorem toNat_append_nibbles (h l : BitVec 4) : (h ++ l).toNat = h.toNat * 16 + l.toNat := by
  rw [BitVec.toNat_append, ← Nat.shiftLeft_add_eq_or_of_lt l.isLt, Nat.shiftLeft_eq]

@[simp] theorem append_extract_nibbles (b : Byte) : b.extractLsb' 4 4 ++ b.extractLsb' 0 4 = b := by
  revert b; decide

@[simp] theorem extract_high_append (h l : BitVec 4) : (h ++ l).extractLsb' 4 4 = h := by
  revert h l; decide

@[simp] theorem extract_low_append (h l : BitVec 4) : (h ++ l).extractLsb' 0 4 = l := by
  revert h l; decide

/-! ### The hex codec (R136, R137) -/

/-- How HexDecode succeeds on two characters and a rest (R136). -/
theorem hexDecode_cons_cons_eq_some_iff (hi lo : Byte) (cs bs : List Byte) :
    hexDecode (hi :: lo :: cs) = some bs ↔ ∃ h l bs', hexVal hi = some h ∧ hexVal lo = some l ∧
      hexDecode cs = some bs' ∧ bs = (h ++ l) :: bs' := by
  rw [hexDecode]
  split
  · next hh hl hd => simp [hh, hl, hd, eq_comm]
  · next hfail =>
    refine ⟨nofun, ?_⟩
    rintro ⟨h, l, bs', hh, hl, hd, _⟩
    exact absurd hd (hfail h l bs' hh hl)

/-- How HexDecode fails on two characters and a rest (R136). -/
theorem hexDecode_cons_cons_eq_none_iff (hi lo : Byte) (cs : List Byte) :
    hexDecode (hi :: lo :: cs) = none ↔ hexVal hi = none ∨ hexVal lo = none ∨ hexDecode cs = none := by
  rw [hexDecode]
  split
  · next hh hl hd => simp [hh, hl, hd]
  · next hfail =>
    refine ⟨fun _ => ?_, fun _ => rfl⟩
    by_contra! hsome
    obtain ⟨hhi, hlo, hcs⟩ := hsome
    obtain ⟨h, hh⟩ := Option.ne_none_iff_exists'.mp hhi
    obtain ⟨l, hl⟩ := Option.ne_none_iff_exists'.mp hlo
    obtain ⟨bs, hd⟩ := Option.ne_none_iff_exists'.mp hcs
    exact hfail h l bs hh hl hd

theorem hexDecode_eq_none_iff : ∀ cs : List Byte,
    hexDecode cs = none ↔ (∃ c ∈ cs, hexVal c = none) ∨ cs.length % 2 = 1
  | [] => by simp [hexDecode]
  | [c] => by simp [hexDecode]
  | hi :: lo :: cs => by
    have hlen : (hi :: lo :: cs).length % 2 = cs.length % 2 := Nat.add_mod_right _ 2
    rw [hexDecode_cons_cons_eq_none_iff, hexDecode_eq_none_iff cs, hlen]
    simp only [List.mem_cons, exists_eq_or_imp, or_assoc]

/-- The byte at index `j` of what a string decodes to is made of the digits at `2j` and `2j + 1` (R136). -/
theorem hexDecode_getElem? : ∀ {cs bs : List Byte}, hexDecode cs = some bs → ∀ {j : Nat} {b : Byte}, bs[j]? = some b →
    ∃ hi lo h l, cs[2 * j]? = some hi ∧ cs[2 * j + 1]? = some lo ∧ hexVal hi = some h ∧ hexVal lo = some l ∧
      b = h ++ l
  | [], _, hd, j, b, hj => by cases hd; simp at hj
  | [_], _, hd, _, _, _ => by cases hd
  | hi :: lo :: cs, _, hd, j, b, hj => by
    obtain ⟨h, l, bs, hh, hl, hcs, rfl⟩ := (hexDecode_cons_cons_eq_some_iff ..).mp hd
    cases j with
    | zero => exact ⟨hi, lo, h, l, rfl, rfl, hh, hl, by simpa using hj.symm⟩
    | succ j => exact hexDecode_getElem? hcs hj

@[simp] theorem hexDecode_hexEncode (bs : List Byte) : hexDecode (hexEncode bs) = some bs := by
  induction bs with
  | nil => rfl
  | cons b bs ih => simp [hexEncode, hexDecode, ih]

/-- Encoding what a string decodes to gives the string in lower case (R137). -/
theorem hexEncode_of_hexDecode : ∀ {cs bs : List Byte}, hexDecode cs = some bs → hexEncode bs = cs.map lowerDigit
  | [], _, hd => by cases hd; rfl
  | [_], _, hd => by cases hd
  | hi :: lo :: cs, _, hd => by
    obtain ⟨h, l, bs, hh, hl, hcs, rfl⟩ := (hexDecode_cons_cons_eq_some_iff ..).mp hd
    simp [hexEncode, hexDigit_of_hexVal hh, hexDigit_of_hexVal hl, hexEncode_of_hexDecode hcs]

/-- Settles O32: the digits by their ranges, the strings two characters at a time. -/
theorem hexDecodeMeaning : Obligations.HexDecodeMeaning := by
  refine ⟨hexVal_eq_some_iff, fun cs => ⟨hexDecode_eq_none_iff cs, fun bs hd => ⟨(hexDecode_length hd).symm, ?_⟩⟩⟩
  intro j b hj
  obtain ⟨hi, lo, h, l, hhi, hlo, hh, hl, rfl⟩ := hexDecode_getElem? hd hj
  exact ⟨hi, lo, h, l, hhi, hlo, hh, hl, toNat_append_nibbles h l⟩

/-- Settles O33: both laws by induction on the bytes; without upper-case digits lower case changes nothing. -/
theorem hexRoundTrip : Obligations.HexRoundTrip :=
  ⟨fun bs => ⟨hexDecode_hexEncode bs, hexEncode_length bs⟩, fun _ _ hd => hexEncode_of_hexDecode hd,
    fun _ _ hd hcs => (hexEncode_of_hexDecode hd).trans (map_lowerDigit_of_not_upper hcs)⟩

/-! ### Padding (R141, R142) -/

theorem padCount_pos (bs : List Byte) : 1 ≤ padCount bs := by unfold padCount; omega

theorem padCount_le (bs : List Byte) : padCount bs ≤ 16 := Nat.sub_le ..

theorem pad_length_mod (bs : List Byte) : (pad bs).length % 16 = 0 := by
  rw [pad_length, padCount]
  omega

theorem pad_length_ge (bs : List Byte) : 16 ≤ (pad bs).length := by
  rw [pad_length, padCount]
  omega

/-- On a sequence of at least 16 bytes Unpad takes off `n` copies of the byte `n`, for an `n` from 1 to 16 (R142). -/
theorem unpad_eq_some_iff {bs r : List Byte} (hlen : 16 ≤ bs.length) : unpad bs = some r ↔
    ∃ n, 1 ≤ n ∧ n ≤ 16 ∧ bs = r ++ List.replicate n (BitVec.ofNat 8 n) := by
  constructor
  · intro h
    unfold unpad at h
    split at h
    · cases h
    · next b hlast =>
      split at h
      · cases h
      · next hrange =>
        split at h
        · next hall =>
          cases h
          refine ⟨b.toNat, by omega, by omega, ?_⟩
          have hdrop : bs.drop (bs.length - b.toNat) = List.replicate b.toNat b :=
            List.eq_replicate_iff.mpr ⟨by rw [List.length_drop]; omega, by simpa using hall⟩
          rw [BitVec.ofNat_toNat, BitVec.setWidth_eq, ← hdrop, List.take_append_drop]
        · cases h
  · rintro ⟨n, hpos, hle, rfl⟩
    have hn : (BitVec.ofNat 8 n).toNat = n := Nat.mod_eq_of_lt (by omega)
    have hlast : (r ++ List.replicate n (BitVec.ofNat 8 n)).getLast? = some (BitVec.ofNat 8 n) := by
      simp [List.getLast?_append, List.getLast?_replicate, Nat.one_le_iff_ne_zero.mp hpos]
    simp [unpad, hlast, hn, Nat.one_le_iff_ne_zero.mp hpos, Nat.not_lt.mpr hle]

/-- A sequence of whole Blocks that ends in `n` copies of `n` is the padding of what stands before them. -/
theorem append_replicate_eq_pad {r : List Byte} {n : Nat} (hpos : 1 ≤ n) (hle : n ≤ 16)
    (hmod : (r.length + n) % 16 = 0) : r ++ List.replicate n (BitVec.ofNat 8 n) = pad r := by
  have hn : padCount r = n := by unfold padCount; omega
  rw [pad, hn]

theorem unpad_eq_some_iff_eq_pad {bs r : List Byte} (hpos : 0 < bs.length) (hmod : bs.length % 16 = 0) :
    unpad bs = some r ↔ bs = pad r := by
  rw [unpad_eq_some_iff (by omega)]
  constructor
  · rintro ⟨n, hn, hn', rfl⟩
    exact append_replicate_eq_pad hn hn' (by simpa using hmod)
  · exact fun h => ⟨padCount r, padCount_pos r, padCount_le r, h⟩

@[simp] theorem unpad_pad (bs : List Byte) : unpad (pad bs) = some bs :=
  (unpad_eq_some_iff_eq_pad (by have := pad_length_ge bs; omega) (pad_length_mod bs)).mpr rfl

/-- Settles O34: Unpad finds the one count that padding to whole Blocks can have used. -/
theorem paddingRoundTrip : Obligations.PaddingRoundTrip :=
  ⟨fun bs => ⟨padCount bs, padCount_pos bs, padCount_le bs, rfl, pad_length_mod bs⟩,
    fun _ _ hpos hmod => unpad_eq_some_iff_eq_pad hpos hmod, unpad_pad⟩

/-! ### Blocks and bytes (R14, R143) -/

@[simp] theorem joinBlocks_cons (b : Block) (bs : List Block) : joinBlocks (b :: bs) = b.toBytes ++ joinBlocks bs := rfl

theorem Block.toBytes_ofBytes {bs : List Byte} (h : 16 ≤ bs.length) : (Block.ofBytes bs).toBytes = bs.take 16 := by
  have hbytes : (Block.ofBytes bs).toBytes = (List.range 16).map (bs.getD · 0) := rfl
  rw [hbytes]
  refine List.ext_getElem (by simp; omega) fun i hi hi' => ?_
  simp only [List.length_map, List.length_range] at hi
  simp [List.getElem?_eq_getElem (show i < bs.length by omega)]

theorem joinBlocks_takeBlocks {n : Nat} {bs : List Byte} (h : bs.length = 16 * n) :
    joinBlocks (takeBlocks n bs) = bs := by
  induction n generalizing bs with
  | zero => exact (List.length_eq_zero_iff.mp h).symm
  | succ n ih =>
    have hrest : (bs.drop 16).length = 16 * n := by rw [List.length_drop]; omega
    rw [takeBlocks, joinBlocks_cons, ih hrest, Block.ofBytes_take, Block.toBytes_ofBytes (by omega),
      List.take_append_drop]

theorem takeBlocks_joinBlocks (bs : List Block) : takeBlocks bs.length (joinBlocks bs) = bs := by
  induction bs with
  | nil => rfl
  | cons b bs ih =>
    have hfirst : Block.ofBytes (b.toBytes ++ joinBlocks bs) = b := rfl
    have hrest : (b.toBytes ++ joinBlocks bs).drop 16 = joinBlocks bs := rfl
    rw [List.length_cons, joinBlocks_cons, takeBlocks, Block.ofBytes_take, hfirst, hrest, ih]

theorem joinBlocks_toBlocks {bs : List Byte} (h : bs.length % 16 = 0) : joinBlocks (toBlocks bs) = bs :=
  joinBlocks_takeBlocks (by omega)

@[simp] theorem toBlocks_joinBlocks (bs : List Block) : toBlocks (joinBlocks bs) = bs := by
  rw [toBlocks, joinBlocks_length, Nat.mul_div_cancel_left _ (by decide), takeBlocks_joinBlocks]

/-! ### The modes (R144, R145) -/

/-- In CBC the chain of decryption is that of encryption: both are the ciphertext blocks. -/
theorem cbcDecryptBlocks_cbcEncryptBlocks (w : List Word) (prev : Block) (bs : List Block) :
    cbcDecryptBlocks w prev (cbcEncryptBlocks w prev bs) = bs := by
  induction bs generalizing prev with
  | nil => rfl
  | cons b bs ih =>
    simp only [cbcEncryptBlocks, cbcDecryptBlocks, decryptBlock_encryptBlock, Block.xor_xor_cancel_right, ih]

section
variable (w : List Word) {bs : List Byte} (h : bs.length % 16 = 0)
include h

theorem ecbDecrypt_ecbEncrypt : ecbDecrypt w (ecbEncrypt w bs) = bs := by
  have hblocks : decryptBlock w ∘ encryptBlock w = id := funext (decryptBlock_encryptBlock w)
  rw [ecbDecrypt, ecbEncrypt, toBlocks_joinBlocks, List.map_map, hblocks, List.map_id, joinBlocks_toBlocks h]

theorem cbcDecrypt_cbcEncrypt (iv : Block) : cbcDecrypt w iv (cbcEncrypt w iv bs) = bs := by
  rw [cbcDecrypt, cbcEncrypt, toBlocks_joinBlocks, cbcDecryptBlocks_cbcEncryptBlocks, joinBlocks_toBlocks h]

theorem ecbEncrypt_length : (ecbEncrypt w bs).length = bs.length := by
  simp only [ecbEncrypt, joinBlocks_length, List.length_map, toBlocks_length]
  omega

theorem ecbDecrypt_length : (ecbDecrypt w bs).length = bs.length := by
  simp only [ecbDecrypt, joinBlocks_length, List.length_map, toBlocks_length]
  omega

theorem cbcEncrypt_length (iv : Block) : (cbcEncrypt w iv bs).length = bs.length := by
  simp only [cbcEncrypt, joinBlocks_length, cbcEncryptBlocks_length, toBlocks_length]
  omega

theorem cbcDecrypt_length (iv : Block) : (cbcDecrypt w iv bs).length = bs.length := by
  simp only [cbcDecrypt, joinBlocks_length, cbcDecryptBlocks_length, toBlocks_length]
  omega

end

/-- Settles O35: block by block, and cutting whole Blocks undoes joining them. -/
theorem modeRoundTrips : Obligations.ModeRoundTrips := fun w iv _ h =>
  ⟨ecbDecrypt_ecbEncrypt w h, ecbEncrypt_length w h, cbcDecrypt_cbcEncrypt w h iv, cbcEncrypt_length w h iv⟩

/-! ### The whole AES operation (R138 to R140, R146, R147) -/

theorem checkKey_of_hexDecode {kc kb : List Byte} (hk : hexDecode kc = some kb) (hlen : kb.length = 16) :
    checkKey kc = .ok (Block.ofBytes kb) := by
  simp [checkKey, hk, hlen]

/-- Data pass the checks of R140: hex, whole Blocks but for CBC encryption, at least one Block for CBC decryption. -/
theorem checkData_eq_ok_iff (dir : Dir) (mode : Mode) (ic db : List Byte) :
    checkData dir mode ic = .ok db ↔ hexDecode ic = some db ∧
      (mode = .ecb ∨ dir = .decrypt → db.length % 16 = 0) ∧ (mode = .cbc ∧ dir = .decrypt → db.length ≠ 0) := by
  unfold checkData
  cases hd : hexDecode ic with
  | none => simp
  | some db' =>
    by_cases hblocks : (mode = .ecb ∨ dir = .decrypt) ∧ db'.length % 16 ≠ 0
    · simp only [if_pos hblocks, reduceCtorEq, Option.some_inj, false_iff]
      rintro ⟨rfl, hall, _⟩
      exact hblocks.2 (hall hblocks.1)
    · by_cases hempty : mode = .cbc ∧ dir = .decrypt ∧ db'.length = 0
      · simp only [if_neg hblocks, if_pos hempty, reduceCtorEq, Option.some_inj, false_iff]
        rintro ⟨rfl, _, hne⟩
        exact hne ⟨hempty.1, hempty.2.1⟩ hempty.2.2
      · simp only [if_neg hblocks, if_neg hempty, Except.ok.injEq, Option.some_inj]
        refine ⟨?_, And.left⟩
        rintro rfl
        exact ⟨rfl, fun h => by_contra fun hne => hblocks ⟨h, hne⟩, fun h hz => hempty ⟨h.1, h.2, hz⟩⟩

/-- How an AES operation succeeds (R146). -/
theorem aesRun_eq_ok_iff (dir : Dir) (mode : Mode) (kc ic o : List Byte) (iv : Block) :
    aesRun dir mode kc ic iv = .ok o ↔ ∃ key db r, checkKey kc = .ok key ∧ checkData dir mode ic = .ok db ∧
      aesCipher dir mode (keyExpand key) db iv = some r ∧ hexEncode r = o := by
  unfold aesRun aesCheck
  cases hk : checkKey kc with
  | error e => simp
  | ok key =>
    cases hd : checkData dir mode ic with
    | error e => simp
    | ok db => cases hc : aesCipher dir mode (keyExpand key) db iv <;> simp [hc]

/-- An ECB result is as long as the data (R147 (c)). -/
theorem aesRun_ecb_length {dir : Dir} {kc ic o : List Byte} {iv : Block} (h : aesRun dir .ecb kc ic iv = .ok o) :
    o.length = ic.length := by
  obtain ⟨key, db, r, _, hdata, hcipher, rfl⟩ := (aesRun_eq_ok_iff ..).mp h
  obtain ⟨hdec, hmod, _⟩ := (checkData_eq_ok_iff ..).mp hdata
  have hr : r.length = db.length := by
    cases dir with
    | encrypt => cases hcipher; exact ecbEncrypt_length _ (hmod (.inl rfl))
    | decrypt => cases hcipher; exact ecbDecrypt_length _ (hmod (.inl rfl))
  rw [hexEncode_length, hr, hexDecode_length hdec]

/-- CBC encryption goes to the next whole Block (R147 (c), R152). -/
theorem aesRun_cbc_encrypt_length {kc ic o : List Byte} {iv : Block} (h : aesRun .encrypt .cbc kc ic iv = .ok o) :
    o.length = 32 * (ic.length / 32 + 1) ∧ ic.length + 2 ≤ o.length ∧ o.length ≤ ic.length + 32 := by
  obtain ⟨key, db, r, _, hdata, hcipher, rfl⟩ := (aesRun_eq_ok_iff ..).mp h
  cases hcipher
  rw [hexEncode_length, cbcEncrypt_length _ (pad_length_mod db), pad_length, checkData_length hdata, padCount]
  omega

/-- CBC decryption takes off 1 to 16 bytes (R147 (c), R153). -/
theorem aesRun_cbc_decrypt_length {kc ic o : List Byte} {iv : Block} (h : aesRun .decrypt .cbc kc ic iv = .ok o) :
    ic.length ≤ o.length + 32 ∧ o.length + 2 ≤ ic.length := by
  obtain ⟨key, db, r, _, hdata, hcipher, rfl⟩ := (aesRun_eq_ok_iff ..).mp h
  obtain ⟨hdec, hmod, hne⟩ := (checkData_eq_ok_iff ..).mp hdata
  have hmod := hmod (.inr rfl)
  have hne := hne ⟨rfl, rfl⟩
  have hplain := cbcDecrypt_length (keyExpand key) hmod iv
  obtain ⟨n, hn, hn', hpad⟩ := (unpad_eq_some_iff (by omega)).mp hcipher
  have hsplit := congrArg List.length hpad
  rw [hplain, List.length_append, List.length_replicate] at hsplit
  rw [hexEncode_length, hexDecode_length hdec]
  omega

section
variable {kc ic kb db : List Byte} (hk : hexDecode kc = some kb) (hkb : kb.length = 16) (hd : hexDecode ic = some db)
include hk hkb hd

/-- The ECB round trip (R147 (a)). -/
theorem aesRun_ecb_roundTrip (hdb : db.length % 16 = 0) (iv : Block) :
    ∃ o, aesRun .encrypt .ecb kc ic iv = .ok o ∧ aesRun .decrypt .ecb kc o iv = .ok (ic.map lowerDigit) := by
  have hkey := checkKey_of_hexDecode hk hkb
  have henc := (checkData_eq_ok_iff .encrypt .ecb ic db).mpr ⟨hd, fun _ => hdb, nofun⟩
  have hdec := (checkData_eq_ok_iff .decrypt .ecb _ _).mpr
    ⟨hexDecode_hexEncode (ecbEncrypt (keyExpand (Block.ofBytes kb)) db),
      fun _ => (congrArg (· % 16) (ecbEncrypt_length _ hdb)).trans hdb, nofun⟩
  exact ⟨_, (aesRun_eq_ok_iff ..).mpr ⟨_, _, _, hkey, henc, rfl, rfl⟩,
    (aesRun_eq_ok_iff ..).mpr ⟨_, _, _, hkey, hdec, congrArg some (ecbDecrypt_ecbEncrypt _ hdb),
      hexEncode_of_hexDecode hd⟩⟩

/-- The CBC round trip (R147 (b)). -/
theorem aesRun_cbc_roundTrip (iv : Block) :
    ∃ o, aesRun .encrypt .cbc kc ic iv = .ok o ∧ aesRun .decrypt .cbc kc o iv = .ok (ic.map lowerDigit) := by
  have hkey := checkKey_of_hexDecode hk hkb
  have hmod := pad_length_mod db
  have hlen := cbcEncrypt_length (keyExpand (Block.ofBytes kb)) hmod iv
  have hge := pad_length_ge db
  have henc := (checkData_eq_ok_iff .encrypt .cbc ic db).mpr ⟨hd, nofun, nofun⟩
  have hdec := (checkData_eq_ok_iff .decrypt .cbc _ _).mpr
    ⟨hexDecode_hexEncode (cbcEncrypt (keyExpand (Block.ofBytes kb)) iv (pad db)), fun _ => by omega, fun _ => by omega⟩
  have hplain : aesCipher .decrypt .cbc (keyExpand (Block.ofBytes kb))
      (cbcEncrypt (keyExpand (Block.ofBytes kb)) iv (pad db)) iv = some db := by
    rw [aesCipher, cbcDecrypt_cbcEncrypt _ hmod, unpad_pad]
  exact ⟨_, (aesRun_eq_ok_iff ..).mpr ⟨_, _, _, hkey, henc, rfl, rfl⟩,
    (aesRun_eq_ok_iff ..).mpr ⟨_, _, _, hkey, hdec, hplain, hexEncode_of_hexDecode hd⟩⟩

end

/-- Settles O36: the round trips of the codec, the padding and the modes put together, and the lengths mode by mode. -/
theorem aesRunLaws : Obligations.AesRunLaws := by
  refine ⟨?ecb, fun _ _ _ _ iv hk hkb hd => aesRun_cbc_roundTrip hk hkb hd iv, fun _ _ _ _ _ => aesRun_ecb_length,
    fun _ _ _ _ => aesRun_cbc_encrypt_length, fun _ _ _ _ => aesRun_cbc_decrypt_length, ?depth,
    fun kc ic iv iv' dir => aesRun_ecb_iv dir kc ic iv iv'⟩
  case ecb =>
    intro kc ic kb db iv hk hkb hd hdb
    obtain ⟨o, henc, hdec⟩ := aesRun_ecb_roundTrip hk hkb hd hdb iv
    exact ⟨o, henc, hdec, fun hcs => map_lowerDigit_of_not_upper hcs ▸ hdec⟩
  case depth =>
    intro kc ic o iv dir mode cfg h hin
    exact (aesRun_length_le h).trans (Nat.add_le_add_right hin 32)

/-! ### The AES commands (R150 to R153) -/

section
variable {s : State} {dir : Dir} {mode : Mode}

theorem complete_accept_of_ok {cmd : Cmd} {out : List Byte} {trace : List TraceEntry}
    (h : engineResult cmd s.operands = .ok out trace) :
    complete (accept cmd s) = s.finished cmd (accept cmd s).work none out trace := by
  rw [complete_accept, h]
  exact commit_accept ..

theorem complete_accept_of_err {cmd : Cmd} {e : Err} (h : engineResult cmd s.operands = .err e) :
    complete (accept cmd s) = s.finished cmd (accept cmd s).work (some e) [] [] := by
  rw [complete_accept, h]
  exact deliver_accept ..

theorem engineResult_aes_ok {o : List Byte} (hovf : s.ovf = false)
    (h : aesRun dir mode s.keyBuf s.inBuf s.iv = .ok o) :
    engineResult ⟨.aes, dir, mode, false, false⟩ s.operands = .ok o [] := by
  simp [engineResult, aesResult, State.operands, hovf, h]

theorem engineResult_aes_error {e : Err} (hovf : s.ovf = false)
    (h : aesRun dir mode s.keyBuf s.inBuf s.iv = .error e) :
    engineResult ⟨.aes, dir, mode, false, false⟩ s.operands = .err e := by
  simp [engineResult, aesResult, State.operands, hovf, h]

/-- The RUN command `i` of AES, issued while BUSY = 0: Overflow, else what AesRun gives, its output with `P` (R150 to
R153, R170, R172). -/
theorem aesCommand_completes {i : Instr} {P : List Byte → Prop}
    (hrun : i.run? = some ⟨.aes, dir, mode, false, false⟩) (hwf : i.wf s.cfg.hasCbc = true) (hb : s.busy = false)
    (hP : ∀ o, aesRun dir mode s.keyBuf s.inBuf s.iv = .ok o → P o) :
    ∃ s1 wk, exec i s = .next s1 ∧ s1.busy = true ∧
      (s.ovf = true → engineTurn s1 = s.finished ⟨.aes, dir, mode, false, false⟩ wk (some .overflow) [] []) ∧
      (s.ovf = false → ∀ o, aesRun dir mode s.keyBuf s.inBuf s.iv = .ok o →
        engineTurn s1 = s.finished ⟨.aes, dir, mode, false, false⟩ wk none o [] ∧ P o) ∧
      (s.ovf = false → ∀ e, aesRun dir mode s.keyBuf s.inBuf s.iv = .error e →
        engineTurn s1 = s.finished ⟨.aes, dir, mode, false, false⟩ wk (some e) [] []) :=
  ⟨_, _, exec_run hrun hwf hb, rfl, fun hovf => complete_accept_of_err (if_pos hovf),
    fun hovf o ho => ⟨complete_accept_of_ok (engineResult_aes_ok hovf ho), hP o ho⟩,
    fun hovf _ he => complete_accept_of_err (engineResult_aes_error hovf he)⟩

end

/-- Settles O44: an AES command whose output is as long as the input. -/
theorem aesEcbEncResult : Obligations.AesEcbEncResult := fun _ hb =>
  aesCommand_completes rfl rfl hb fun _ => aesRun_ecb_length

/-- Settles O45: as O44, in the other direction. -/
theorem aesEcbDecResult : Obligations.AesEcbDecResult := fun _ hb =>
  aesCommand_completes rfl rfl hb fun _ => aesRun_ecb_length

/-- Settles O46: an AES command, legal where HAS_CBC is true, whose output has the length of the padded input. -/
theorem aesCbcEncResult : Obligations.AesCbcEncResult := fun _ hb hcbc =>
  aesCommand_completes rfl hcbc hb fun _ h => (aesRun_cbc_encrypt_length h).1

/-- Settles O47: an AES command, legal where HAS_CBC is true, whose output lacks the padding. -/
theorem aesCbcDecResult : Obligations.AesCbcDecResult := fun _ hb hcbc =>
  aesCommand_completes rfl hcbc hb fun _ => aesRun_cbc_decrypt_length

end Sys2Proof.Machine

/-! PROOF. The statements of `44_cipher_engine_control.md`: what a command word does at once, what the completion step
writes, and that every operation comes to it. -/

namespace Sys2Proof.Machine

/-! ### Commands (R168, R170, R174 to R176) -/

theorem command_of_decode {s : State} {c : Word} {i : Instr} (hd : decode s.cfg.hasCbc c = some i) :
    command c s = exec i s := by
  unfold command
  rw [hd]

/-- Settles O4: a placed word is the turn of a write to CTRL, and taking it gives back the state it was placed in. -/
theorem stepRunsDecodedCommand : Obligations.StepRunsDecodedCommand :=
  ⟨fun s _ _ rest hp hd => (step_write hp).trans (command_of_decode (s := s.setPending rest) hd),
    fun s nbits w _ hd =>
      (step_write (s := s.withFetchWord nbits w) (ts := s.pending) rfl).trans (command_of_decode (s := s) hd)⟩

/-- Settles O37: with BUSY 0 or 1, the gate before NOP answers the state it is given. -/
theorem nopChangesNothing : Obligations.NopChangesNothing :=
  ⟨fun h => decode_encode h .nop, fun s => congrArg Host.Outcome.next (ite_self s)⟩

/-- STATUS reads 0 when its four fields are 0 (R65). -/
theorem statusWord_eq_zero {s : State} (hb : s.busy = false) (hd : s.done = false) (ho : s.ovf = false)
    (he : s.err = none) : statusWord s = 0 := by
  rw [statusWord, hb, hd, ho, he]
  rfl

/-- Settles O38: CLR clears three flags, and BUSY, the fourth field of STATUS, is 0 where it takes effect. -/
theorem clrStartsNewRequest : Obligations.ClrStartsNewRequest :=
  ⟨fun h => decode_encode h .clr,
    fun s hb => ⟨clearRequest s, whenIdle_idle hb, clearRequest_eq s,
      statusWord_eq_zero ((clearRequest_busy s).trans hb) rfl rfl rfl⟩,
    fun _ hb => exec_busy hb⟩

/-- Settles O39: acceptance looks at no operand. -/
theorem runAcceptance : Obligations.RunAcceptance := fun s _ cmd hr hw hb =>
  ⟨_, (exec_run hr hw hb).trans (congrArg _ (accept_eq cmd s))⟩

/-- Settles O40: the illegal command's effect leaves BUSY 0, where the engine's turn does nothing. -/
theorem illegalCommandReportsAtOnce : Obligations.IllegalCommandReportsAtOnce := by
  intro s c rest hb hd hp
  have hidle : (illegalCommand (s.setPending rest)).busy = false := rfl
  exact ⟨_, (step_write hp).trans (command_illegal (s := s.setPending rest) hb hd),
    illegalCommand_idle (s := s.setPending rest) hb, hidle, engineTurn_idle hidle⟩

/-! ### The completion step (R171, R172) -/

section
variable {cmd : Cmd} {ops : Operands}

theorem engineResult_shift (hovf : ops.ovf = false) (halg : cmd.alg = .shift) :
    engineResult cmd ops = shiftResult cmd ops := by
  simp [engineResult, hovf, halg]

theorem engineResult_aes (hovf : ops.ovf = false) (halg : cmd.alg = .aes) :
    engineResult cmd ops = aesResult cmd ops := by
  simp [engineResult, hovf, halg]

theorem aesResult_of_ok {out : List Byte} (h : aesRun cmd.dir cmd.mode ops.key ops.text ops.iv = .ok out) :
    aesResult cmd ops = .ok out [] := by
  simp [aesResult, h]

theorem aesResult_of_error {e : Err} (h : aesRun cmd.dir cmd.mode ops.key ops.text ops.iv = .error e) :
    aesResult cmd ops = .err e := by
  simp [aesResult, h]

end

section
variable {s : State}

theorem complete_of_ok {out : List Byte} {trace : List TraceEntry}
    (h : engineResult s.curCmd s.operands = .ok out trace) :
    complete s = s.finished s.curCmd s.work none out trace := congrArg (conclude · s) h

theorem complete_of_err {e : Err} (h : engineResult s.curCmd s.operands = .err e) :
    complete s = s.finished s.curCmd s.work (some e) [] [] := congrArg (conclude · s) h

end

/-- Settles O48, by the order of `Exec`: OVF, then the algorithm, then SINV or what AesRun gives. -/
theorem completionStep : Obligations.CompletionStep := by
  refine ⟨fun s rest hb hp => ?_, fun s rest hb hp =>
    (step_engine hp).trans (congrArg _ (engineTurn_idle (s := s.setPending rest) hb))⟩
  rw [step_engine hp, engineTurn_busy (s := s.setPending rest) hb]
  change Host.Outcome.next (complete (s.setPending rest)) = .next ((s.setPending rest).finished s.curCmd s.work _ _ _)
  refine congrArg _ ?_
  cases hovf : s.ovf with
  | true => exact complete_of_err (engineResult_overflow s.curCmd (ops := s.operands) hovf)
  | false =>
    cases halg : s.curCmd.alg with
    | shift =>
      have hres := engineResult_shift (ops := s.operands) hovf halg
      cases hsinv : s.curCmd.sinv with
      | true => exact complete_of_err (s := s.setPending rest) (hres.trans (if_pos hsinv))
      | false =>
        refine (complete_of_ok (s := s.setPending rest)
          (hres.trans (if_neg (ne_true_of_eq_false hsinv)))).trans ?_
        cases s.curCmd.t <;> rfl
    | aes =>
      have hres := engineResult_aes (ops := s.operands) hovf halg
      cases hrun : aesRun s.curCmd.dir s.curCmd.mode s.keyBuf s.inBuf s.iv with
      | ok out => exact complete_of_ok (s := s.setPending rest) (hres.trans (aesResult_of_ok hrun))
      | error e => exact complete_of_err (s := s.setPending rest) (hres.trans (aesResult_of_error hrun))

/-! ### Every operation completes (R173, R178) -/

/-- Within `n` steps of `s` the first state with BUSY = 0 is reached, and it has DONE = 1. -/
def CompletesWithin (n : Nat) (s : State) : Prop :=
  ∃ (k : Nat) (t : State), 1 ≤ k ∧ k ≤ n ∧ runSteps k s = .next t ∧ t.busy = false ∧ t.done = true ∧
    ∀ j, j < k → ∃ u, runSteps j s = .next u ∧ u.busy = true

theorem completesWithin_of_completes {s : State} (n : Nat) (h : s.completes) : CompletesWithin (n + 1) s := by
  obtain ⟨ts, hstep⟩ := step_completes h
  obtain ⟨_, _, _, hframe⟩ := complete_frame (s.setPending ts)
  refine ⟨1, complete (s.setPending ts), Nat.le_refl 1, Nat.le_add_left 1 n, ?_, complete_busy _, by rw [hframe], ?_⟩
  · rw [runSteps_succ, hstep]
    rfl
  · intro j hj
    obtain rfl := Nat.lt_one_iff.mp hj
    exact ⟨s, rfl, h.1⟩

/-- A step that leaves BUSY = 1 delays completion by one step. -/
theorem completesWithin_of_step {s u : State} {n : Nat} (hb : s.busy = true) (hstep : step s = .next u)
    (h : CompletesWithin n u) : CompletesWithin (n + 1) s := by
  have hrun : ∀ k, runSteps (k + 1) s = runSteps k u := fun k => by rw [runSteps_succ, hstep]
  obtain ⟨k, t, _, hle, ht, hidle, hdone, hbefore⟩ := h
  refine ⟨k + 1, t, Nat.le_add_left 1 k, Nat.succ_le_succ hle, (hrun k).trans ht, hidle, hdone, fun j hj => ?_⟩
  cases j with
  | zero => exact ⟨s, rfl, hb⟩
  | succ j => rw [hrun j]; exact hbefore j (Nat.lt_of_succ_lt_succ hj)

/-- A turn that is neither refused nor a reset: the engine's, a host access or a micro-step. -/
theorem ok_turn_cases {cfg : Config} {t : Turn} (hok : t.ok cfg = true) (hreset : t ≠ .reset) :
    t = .engine ∨ t.reaches cfg = true ∨ t = .micro := by
  cases t with
  | write | read => exact .inr (.inl hok)
  | engine => exact .inl rfl
  | micro => exact .inr (.inr rfl)
  | reset => exact absurd rfl hreset

/-- A host access or a micro-step leaves a running operation running (R44, R45, R56). -/
theorem step_access_keeps_busy {s : State} {t : Turn} {ts : List Turn} (hb : s.busy = true)
    (ht : t.reaches s.cfg = true ∨ t = .micro) (hp : s.pending = t :: ts) :
    ∃ u, step s = .next u ∧ u.busy = true ∧ u.cfg = s.cfg ∧ u.pending = ts := by
  obtain hreach | rfl := ht
  · obtain ⟨r, d, rfl⟩ | ⟨r, rfl⟩ := reaches_cases hreach
    · exact ⟨s.setPending ts, step_write_busy hb hp, hb, rfl, rfl⟩
    · obtain ⟨_, _, _, hread⟩ := hostRead_frame r (s.setPending ts)
      exact ⟨_, (step_read hp).trans (congrArg _ hread), hb, rfl, rfl⟩
  · obtain ⟨wk, hwk⟩ := microTurn_eq (s.setPending ts)
    exact ⟨_, (step_micro hp).trans (congrArg _ hwk), hb, rfl, rfl⟩

/-- Settles O51, by induction on the turns listed: each is the completion step or leaves the operation running, and
after the last of them the engine moves (log 2). -/
theorem everyOperationCompletes : Obligations.EveryOperationCompletes := by
  intro s hb hturns
  change CompletesWithin (s.pending.length + 1) s
  induction hts : s.pending generalizing s with
  | nil => exact completesWithin_of_completes 0 ⟨hb, .inl hts⟩
  | cons a ts ih =>
    rw [hts] at hturns
    obtain ⟨hok, hreset⟩ := hturns a List.mem_cons_self
    obtain rfl | haccess := ok_turn_cases hok hreset
    · exact completesWithin_of_completes _ ⟨hb, .inr (by rw [hts]; rfl)⟩
    · obtain ⟨u, hstep, hbusy, hcfg, hpending⟩ := step_access_keeps_busy hb haccess hts
      refine completesWithin_of_step hb hstep (ih u hbusy (fun t ht => ?_) hpending)
      rw [hcfg]
      exact hturns t (List.mem_cons_of_mem a (hpending ▸ ht))

end Sys2Proof.Machine

/-! PROOF. The statements of `60_exceptions.md`: which error is reported, which command can report which, that a read
can fall on either side of the completion step, and that a command can be issued again. -/

namespace Sys2Proof.Machine

/-! ### The checks of an AES operation that fail (R138 to R140, R146) -/

section
variable {dir : Dir} {mode : Mode} {kc ic kb db : List Byte}

theorem checkKey_of_not_hex (hk : hexDecode kc = none) : checkKey kc = .error .encoding := by
  simp [checkKey, hk]

theorem checkKey_of_length_ne (hk : hexDecode kc = some kb) (hlen : kb.length ≠ 16) :
    checkKey kc = .error .keyLength := by
  simp [checkKey, hk, hlen]

theorem checkData_of_not_hex (hd : hexDecode ic = none) : checkData dir mode ic = .error .encoding := by
  simp [checkData, hd]

theorem checkData_of_partial_block (hd : hexDecode ic = some db)
    (hpart : (mode = .ecb ∨ dir = .decrypt) ∧ db.length % 16 ≠ 0) :
    checkData dir mode ic = .error .blockAlignment := by
  simp only [checkData, hd, if_pos hpart]

theorem checkData_of_empty (hd : hexDecode ic = some db) (hempty : mode = .cbc ∧ dir = .decrypt ∧ db.length = 0) :
    checkData dir mode ic = .error .padding := by
  have hwhole : ¬((mode = .ecb ∨ dir = .decrypt) ∧ db.length % 16 ≠ 0) := fun h => h.2 (by rw [hempty.2.2])
  simp only [checkData, hd, if_neg hwhole, if_pos hempty]

theorem aesCheck_of_checkKey_error {e : Err} (hk : checkKey kc = .error e) : aesCheck dir mode kc ic = .error e := by
  simp [aesCheck, hk]

section
variable {key : Block} (hk : checkKey kc = .ok key)
include hk

theorem aesCheck_of_checkData_error {e : Err} (hd : checkData dir mode ic = .error e) :
    aesCheck dir mode kc ic = .error e := by
  simp [aesCheck, hk, hd]

theorem aesCheck_of_ok (hd : checkData dir mode ic = .ok db) : aesCheck dir mode kc ic = .ok (key, db) := by
  simp [aesCheck, hk, hd]

end

end

/-! ### The priority of errors (R187) -/

/-- The error that a result reports, if any. -/
def Result.error? : Result → Option Err
  | .ok _ _ => none
  | .err e => some e

theorem complete_err (s : State) : (complete s).err = (engineResult s.curCmd s.operands).error? := by
  unfold complete
  cases engineResult s.curCmd s.operands <;> rfl

/-- Only the padding check of CBC decryption can fail once the operands are checked. -/
theorem cipherResult_error? (dir : Dir) (mode : Mode) (w : List Word) (db : List Byte) (iv : Block) :
    (cipherResult (aesCipher dir mode w db iv)).error? =
      if mode = .cbc ∧ dir = .decrypt ∧ unpad (cbcDecrypt w iv db) = none then some .padding else none := by
  cases mode with
  | ecb => cases dir <;> rfl
  | cbc =>
    cases dir with
    | encrypt => rfl
    | decrypt => cases h : unpad (cbcDecrypt w iv db) <;> simp [aesCipher, cipherResult, Result.error?, h]

theorem aesResult_error?_of_aesCheck {cmd : Cmd} {ops : Operands} {e : Err}
    (h : aesCheck cmd.dir cmd.mode ops.key ops.text = .error e) : (aesResult cmd ops).error? = some e :=
  congrArg Result.error? (aesResult_error h)

/-- The errors that hex operands with a key of 16 bytes can still meet (R140, R142, R146). -/
theorem aesResult_error?_of_hex {cmd : Cmd} {ops : Operands} {key : Block} {db : List Byte}
    (hkey : checkKey ops.key = .ok key) (hhex : hexDecode ops.text = some db) :
    (aesResult cmd ops).error? =
      if (cmd.mode = .ecb ∨ cmd.dir = .decrypt) ∧ db.length % 16 ≠ 0 then some .blockAlignment
      else if cmd.mode = .cbc ∧ cmd.dir = .decrypt ∧
          (db.length = 0 ∨ unpad (cbcDecrypt (keyExpand key) ops.iv db) = none) then some .padding
      else none := by
  by_cases hpart : (cmd.mode = .ecb ∨ cmd.dir = .decrypt) ∧ db.length % 16 ≠ 0
  · rw [if_pos hpart]
    exact aesResult_error?_of_aesCheck (aesCheck_of_checkData_error hkey (checkData_of_partial_block hhex hpart))
  rw [if_neg hpart]
  by_cases hempty : cmd.mode = .cbc ∧ cmd.dir = .decrypt ∧ db.length = 0
  · obtain ⟨hm, hd, hlen⟩ := hempty
    rw [if_pos ⟨hm, hd, .inl hlen⟩]
    exact aesResult_error?_of_aesCheck (aesCheck_of_checkData_error hkey (checkData_of_empty hhex ⟨hm, hd, hlen⟩))
  have hdata : checkData cmd.dir cmd.mode ops.text = .ok db := (checkData_eq_ok_iff ..).mpr
    ⟨hhex, fun h => by_contra fun hne => hpart ⟨h, hne⟩, fun h hlen => hempty ⟨h.1, h.2, hlen⟩⟩
  rw [aesResult_checked (aesCheck_of_ok hkey hdata), cipherResult_error?]
  refine if_congr ⟨fun ⟨hm, hd, hunpad⟩ => ⟨hm, hd, .inr hunpad⟩, fun ⟨hm, hd, hbad⟩ => ⟨hm, hd, ?_⟩⟩ rfl rfl
  exact hbad.resolve_left fun hlen => hempty ⟨hm, hd, hlen⟩

/-- Settles O49, check by check in the order of `Exec` and AesRun. -/
theorem errorPriority : Obligations.ErrorPriority := by
  intro s
  rw [complete_err]
  cases hovf : s.ovf with
  | true => exact congrArg Result.error? (engineResult_overflow s.curCmd (ops := s.operands) hovf)
  | false =>
    cases halg : s.curCmd.alg with
    | shift =>
      rw [engineResult_shift (ops := s.operands) hovf halg, shiftResult]
      cases s.curCmd.sinv <;> rfl
    | aes =>
      rw [engineResult_aes (ops := s.operands) hovf halg]
      cases hkhex : hexDecode s.keyBuf with
      | none => exact aesResult_error?_of_aesCheck (aesCheck_of_checkKey_error (checkKey_of_not_hex hkhex))
      | some kb =>
        by_cases hlen : kb.length = 16
        · have hkey := checkKey_of_hexDecode hkhex hlen
          simp only [hlen, ne_eq, not_true_eq_false, if_false]
          cases hhex : hexDecode s.inBuf with
          | none => exact aesResult_error?_of_aesCheck (aesCheck_of_checkData_error hkey (checkData_of_not_hex hhex))
          | some db => exact aesResult_error?_of_hex (ops := s.operands) hkey hhex
        · simp only [if_pos hlen]
          exact aesResult_error?_of_aesCheck (aesCheck_of_checkKey_error (checkKey_of_length_ne hkhex hlen))

/-! ### Which command can end with which code (R188) -/

/-- What ERR can be when a command has completed (R188); `none` is code 0. -/
def errorCodes (cmd : Cmd) : List (Option Err) :=
  match cmd.alg with
  | .shift => [if cmd.sinv then some .invalidShift else none, some .overflow]
  | .aes => [none, some .keyLength, some .encoding, some .overflow]
    ++ (if cmd.mode = .ecb ∨ cmd.dir = .decrypt then [some .blockAlignment] else [])
    ++ (if cmd.mode = .cbc ∧ cmd.dir = .decrypt then [some .padding] else [])

theorem mem_errorCodes_shift {cmd : Cmd} (halg : cmd.alg = .shift) {e : Option Err} :
    e ∈ errorCodes cmd ↔ e = (if cmd.sinv then some .invalidShift else none) ∨ e = some .overflow := by
  simp [errorCodes, halg]

theorem mem_errorCodes_aes {cmd : Cmd} (halg : cmd.alg = .aes) {e : Option Err} : e ∈ errorCodes cmd ↔
    e ∈ [none, some .keyLength, some .encoding, some .overflow] ∨
    ((cmd.mode = .ecb ∨ cmd.dir = .decrypt) ∧ e = some .blockAlignment) ∨
    (cmd.mode = .cbc ∧ cmd.dir = .decrypt) ∧ e = some .padding := by
  simp only [errorCodes, halg, List.mem_append, List.mem_ite_nil_right, List.mem_singleton, or_assoc]

theorem complete_err_mem_errorCodes (s : State) : (complete s).err ∈ errorCodes s.curCmd := by
  have h := errorPriority s
  cases halg : s.curCmd.alg with
  | shift =>
    rw [halg] at h
    rw [mem_errorCodes_shift halg, h]
    cases s.ovf
    · exact .inl rfl
    · exact .inr rfl
  | aes =>
    rw [halg] at h
    rw [mem_errorCodes_aes halg]
    split at h
    next hovf => simp [h]
    dsimp only at h
    split at h
    next hkhex => simp [h]
    split at h
    next hlen => simp [h]
    split at h
    next hhex => simp [h]
    split at h
    next hpart => exact .inr (.inl ⟨hpart.1, h⟩)
    split at h
    next hpad => exact .inr (.inr ⟨⟨hpad.1, hpad.2.1⟩, h⟩)
    next => simp [h]

theorem illegalCommand_notMem_errorCodes (cmd : Cmd) : some Err.illegalCommand ∉ errorCodes cmd := by
  cases halg : cmd.alg with
  | shift => rw [mem_errorCodes_shift halg]; cases cmd.sinv <;> decide
  | aes => simp [mem_errorCodes_aes halg]

/-- A command that ends with a code is a RUN command, and the code is that of its completion step. -/
theorem endsWith_iff {s : State} {i : Instr} {e : Option Err} : s.endsWith i e ↔
    ∃ cmd, i.run? = some cmd ∧ s.busy = false ∧ i.wf s.cfg.hasCbc = true ∧ (complete (accept cmd s)).err = e := by
  constructor
  · rintro ⟨hb, hw, s1, hs1, hbusy, rfl⟩
    obtain ⟨_, h⟩ | ⟨_, h⟩ | ⟨cmd, hr, _, h⟩ | ⟨hw', _⟩ := exec_eq i s
    · rw [h, whenIdle_idle hb] at hs1
      cases hs1
      exact absurd (hb.symm.trans hbusy) (by decide)
    · rw [h, whenIdle_idle hb] at hs1
      cases hs1
      exact absurd (hb.symm.trans hbusy) (by decide)
    · rw [h, whenIdle_idle hb] at hs1
      cases hs1
      exact ⟨cmd, hr, hb, hw, rfl⟩
    · exact absurd (hw.symm.trans hw') (by decide)
  · rintro ⟨cmd, hr, hb, hw, he⟩
    exact ⟨hb, hw, accept cmd s, exec_run hr hw hb, rfl, he⟩

/-- The reset state with these buffers and this OVF. -/
def withOperands (ovf : Bool) (key text : List Byte) : State := ((State.reset.setKeyBuf key).setInBuf text).setOvf ovf

/-- From a state with the invariants `cmd` can be issued and ends with `e`. -/
def Reports (cmd : Cmd) (e : Option Err) : Prop :=
  ∃ s : State, s.Inv ∧ s.cfg.hasCbc = true ∧ s.busy = false ∧ (complete (accept cmd s)).err = e

theorem reports_of_operands {cmd : Cmd} {e : Option Err} (ovf : Bool) {key text : List Byte}
    (he : (complete (accept cmd (withOperands ovf key text))).err = e)
    (hkey : key.length ≤ 64 := by decide) (htext : text.length ≤ 1024 := by decide) : Reports cmd e :=
  ⟨withOperands ovf key text,
    inv_setOvf (inv_setInBuf (inv_setKeyBuf (inv_resetOf (by decide)) hkey) htext) ovf, rfl, rfl, he⟩

/-- A key of 16 zero bytes, as hex digits. -/
def zeroKey : List Byte := List.replicate 32 0x30

/-! Each code has operands on which the priority rule, evaluated, gives it. -/

theorem reports_overflow (cmd : Cmd) : Reports cmd (some .overflow) :=
  reports_of_operands true (key := []) (text := []) (errorPriority _)

section
variable (dir : Dir) (mode : Mode) (t sinv : Bool)

theorem reports_shift : Reports ⟨.shift, dir, mode, t, sinv⟩ (if sinv then some .invalidShift else none) :=
  reports_of_operands false (key := []) (text := []) (errorPriority _)

theorem reports_keyLength : Reports ⟨.aes, dir, mode, t, sinv⟩ (some .keyLength) :=
  reports_of_operands false (key := []) (text := []) (errorPriority _)

theorem reports_encoding : Reports ⟨.aes, dir, mode, t, sinv⟩ (some .encoding) :=
  reports_of_operands false (key := [0x00]) (text := []) (errorPriority _)

theorem reports_blockAlignment (h : mode = .ecb ∨ dir = .decrypt) :
    Reports ⟨.aes, dir, mode, t, sinv⟩ (some .blockAlignment) :=
  have hpart : (mode = .ecb ∨ dir = .decrypt) ∧ 1 % 16 ≠ 0 := ⟨h, by decide⟩
  reports_of_operands false (key := zeroKey) (text := [0x30, 0x30]) ((errorPriority _).trans (if_pos hpart))

theorem reports_padding : Reports ⟨.aes, .decrypt, .cbc, t, sinv⟩ (some .padding) :=
  reports_of_operands false (key := zeroKey) (text := []) (errorPriority _)

/-- CBC decryption alone needs a text of its own, an encryption's output. -/
theorem reports_none : Reports ⟨.aes, dir, mode, t, sinv⟩ none := by
  have hkey : hexDecode zeroKey = some (List.replicate 16 0) := by decide
  cases dir with
  | encrypt =>
    refine reports_of_operands false (key := zeroKey) (text := []) ((errorPriority _).trans ?_)
    cases mode <;> rfl
  | decrypt =>
    cases mode with
    | ecb => exact reports_of_operands false (key := zeroKey) (text := []) (errorPriority _)
    | cbc =>
      obtain ⟨o, henc, hdec⟩ := aesRun_cbc_roundTrip (ic := []) (db := []) hkey rfl rfl State.reset.iv
      obtain ⟨_, _, hlen⟩ := aesRun_cbc_encrypt_length henc
      exact reports_of_operands false (key := zeroKey) (text := o)
        ((complete_err _).trans (congrArg Result.error? (aesResult_of_ok hdec))) (htext := hlen.trans (by decide))

end

/-- Every code of the table is reached. -/
theorem reports_of_mem_errorCodes {cmd : Cmd} {e : Option Err} (he : e ∈ errorCodes cmd) : Reports cmd e := by
  obtain ⟨alg, dir, mode, t, sinv⟩ := cmd
  cases alg with
  | shift =>
    obtain rfl | rfl := (mem_errorCodes_shift rfl).mp he
    · exact reports_shift ..
    · exact reports_overflow _
  | aes =>
    obtain hall | ⟨hpart, rfl⟩ | ⟨⟨rfl, rfl⟩, rfl⟩ := (mem_errorCodes_aes rfl).mp he
    · simp only [List.mem_cons, List.not_mem_nil, or_false] at hall
      obtain rfl | rfl | rfl | rfl := hall
      · exact reports_none ..
      · exact reports_keyLength ..
      · exact reports_encoding ..
      · exact reports_overflow _
    · exact reports_blockAlignment _ _ _ _ hpart
    · exact reports_padding ..

theorem mem_errorCodes_of_endsWith {s : State} {i : Instr} {cmd : Cmd} {e : Option Err} (hr : i.run? = some cmd)
    (h : s.endsWith i e) : e ∈ errorCodes cmd := by
  obtain ⟨cmd', hr', _, _, rfl⟩ := endsWith_iff.mp h
  cases hr.symm.trans hr'
  exact complete_err_mem_errorCodes (accept cmd s)

theorem exists_inv_endsWith {i : Instr} {cmd : Cmd} {e : Option Err} (hr : i.run? = some cmd)
    (he : e ∈ errorCodes cmd) : ∃ s : State, s.Inv ∧ s.endsWith i e := by
  obtain ⟨s, hs, hcbc, hb, herr⟩ := reports_of_mem_errorCodes he
  have hw : i.wf s.cfg.hasCbc = true := by rw [hcbc]; cases i <;> rfl
  exact ⟨s, hs, endsWith_iff.mpr ⟨cmd, hr, hb, hw, herr⟩⟩

/-- A row of the table of R188, its codes in any order. -/
theorem exists_endsWith_iff {i : Instr} {cmd : Cmd} {codes : List (Option Err)} (hr : i.run? = some cmd)
    (hcodes : (errorCodes cmd).Perm codes) (e : Option Err) : (∃ s : State, s.endsWith i e) ↔ e ∈ codes := by
  rw [← hcodes.mem_iff]
  constructor
  · rintro ⟨s, h⟩
    exact mem_errorCodes_of_endsWith hr h
  · intro he
    obtain ⟨s, _, h⟩ := exists_inv_endsWith hr he
    exact ⟨s, h⟩

/-- The codes of the four words of a shift command together. -/
theorem exists_shift_endsWith_iff {i : Bool → Bool → Instr} {dir : Dir}
    (hr : ∀ t v, (i t v).run? = some ⟨.shift, dir, .ecb, t, v⟩) (e : Option Err) :
    (∃ (s : State) (t v : Bool), s.endsWith (i t v) e) ↔ e ∈ [none, some .invalidShift, some .overflow] := by
  constructor
  · rintro ⟨s, t, v, h⟩
    obtain rfl | rfl := (mem_errorCodes_shift rfl).mp (mem_errorCodes_of_endsWith (hr t v) h)
    · cases v <;> simp
    · simp
  · intro he
    have hv : ∃ v, e ∈ errorCodes ⟨.shift, dir, .ecb, false, v⟩ := by
      simp only [List.mem_cons, List.not_mem_nil, or_false] at he
      obtain rfl | rfl | rfl := he
      · exact ⟨false, (mem_errorCodes_shift rfl).mpr (.inl rfl)⟩
      · exact ⟨true, (mem_errorCodes_shift rfl).mpr (.inl rfl)⟩
      · exact ⟨false, (mem_errorCodes_shift rfl).mpr (.inr rfl)⟩
    obtain ⟨v, hv⟩ := hv
    obtain ⟨s, _, h⟩ := exists_inv_endsWith (hr false v) hv
    exact ⟨s, false, v, h⟩

theorem stepEffect_illegalCommand {s t : State} {ts : List Turn} (he : StepEffect s ts t)
    (ht : t.err = some .illegalCommand) : s.err = some .illegalCommand ∨ s.illegal := by
  cases he with
  | illegal hill => exact .inr hill
  | complete =>
    exact absurd (ht ▸ complete_err_mem_errorCodes (s.setPending ts)) (illegalCommand_notMem_errorCodes _)
  | reset | run | clear => cases ht
  | operand r d _ hr =>
    obtain ⟨_, _, _, _, _, h⟩ := operandWrite_frame hr d (s.setPending ts); rw [h] at ht; exact .inl ht
  | read r => obtain ⟨_, _, _, h⟩ := hostRead_frame r (s.setPending ts); rw [h] at ht; exact .inl ht
  | keyPush | inPush | keyOverflow | inOverflow | micro | none => exact .inl ht

/-- Settles O50: the codes are those of the priority rule, and each has a state whose operands call for it. -/
theorem errorCodesPerCommand : Obligations.ErrorCodesPerCommand := by
  refine ⟨fun e => ⟨exists_shift_endsWith_iff (fun _ _ => rfl) e, exists_shift_endsWith_iff (fun _ _ => rfl) e,
      exists_endsWith_iff rfl (by decide) e, exists_endsWith_iff rfl (by decide) e,
      exists_endsWith_iff rfl (by decide) e, exists_endsWith_iff rfl (by decide) e⟩,
    fun s i e h => ?inv, fun s hb => ⟨⟨s, whenIdle_idle hb, rfl⟩, _, whenIdle_idle hb, rfl⟩, fun s t h ht => ?illegal⟩
  case inv =>
    obtain ⟨cmd, hr, _, _, rfl⟩ := endsWith_iff.mp h
    exact exists_inv_endsWith hr (complete_err_mem_errorCodes (accept cmd s))
  case illegal =>
    obtain ⟨ts, he⟩ := step_effect h
    exact stepEffect_illegalCommand he ht

/-! ### A race with the completion step (R197) -/

theorem runSteps_two {s u t : State} (h₁ : step s = .next u) (h₂ : step u = .next t) : runSteps 2 s = .next t := by
  rw [runSteps_succ, h₁]
  dsimp only
  rw [runSteps_succ, h₂]
  rfl

/-- The engine's turn while BUSY = 1 leaves BUSY 0 and DONE 1, and writes the result state besides (R172). -/
theorem step_engine_frame {s : State} {ts : List Turn} (hb : s.busy = true) (hp : s.pending = .engine :: ts) :
    ∃ err out trace, step s = .next { s with
      pending := ts, phase := .idle, done := true, err := err
      outBuf := out, outRp := 0, traceBuf := trace, traceRp := 0 } := by
  obtain ⟨err, out, trace, hframe⟩ := complete_frame (s.setPending ts)
  have hturn : engineTurn (s.setPending ts) = complete (s.setPending ts) := engineTurn_busy hb
  exact ⟨err, out, trace, (step_engine hp).trans (congrArg _ (hturn.trans hframe))⟩

/-- Settles O53: STATUS shows BUSY until the completion step, and DONE after it. -/
theorem bothOrdersOfARaceAdmitted : Obligations.BothOrdersOfARaceAdmitted := by
  intro s rest hb
  refine ⟨fun hp => ?before, fun hp => ?after⟩
  case before =>
    obtain ⟨_, _, _, hstep⟩ := step_engine_frame (s := hostRead .status (s.setPending (.engine :: rest))) hb rfl
    obtain ⟨hbusy, _⟩ := statusWord_low (s.setPending (.engine :: rest))
    exact ⟨_, runSteps_two (step_read hp) hstep, rfl, hbusy.trans hb⟩
  case after =>
    obtain ⟨_, _, _, hstep⟩ := step_engine_frame hb hp
    obtain ⟨hbusy, hdone, _⟩ := statusWord_low _
    exact ⟨_, runSteps_two hstep (step_read rfl), rfl, hbusy, hdone⟩

/-! ### The same command again (R190, R211) -/

/-- Settles O57: the first completion changed no operand, so the second reads the same ones. -/
theorem repeatedCommandGivesSameResult : Obligations.RepeatedCommandGivesSameResult := by
  intro s i cmd hr hw hb
  obtain ⟨_, _, _, hframe⟩ := complete_frame (accept cmd s)
  have hcfg : (complete (accept cmd s)).cfg = s.cfg := by rw [hframe]; rfl
  refine ⟨accept cmd s, accept cmd (complete (accept cmd s)), exec_run hr hw hb,
    exec_run hr (hcfg ▸ hw) (complete_busy _), rfl, ?_⟩
  rw [hframe]
  exact unreadOperandsHaveNoInfluence _ _ rfl rfl rfl (fun _ => rfl) (fun _ => rfl) (fun _ _ => rfl)

end Sys2Proof.Machine

/-! PROOF. The statements of `70_reset_and_hazards.md`: reset in any state, and a RUN command straight after reset. -/

namespace Sys2Proof.Machine

/-! ### Reset (R205 to R207) -/

/-- Settles O7: the reset state is idle, so the engine's turn does nothing; CAP is read from the parameters alone. -/
theorem resetInAnyState : Obligations.ResetInAnyState := fun s rest hp =>
  ⟨_, step_reset hp, applyReset_eq (s.setPending rest), engineTurn_idle (applyReset_busy _), rfl⟩

/-! ### A RUN command with empty buffers (R208) -/

/-- An empty key is hex, of no byte, so its length is what fails (R139, R187). -/
theorem aesResult_of_no_key {cmd : Cmd} {ops : Operands} (hkey : ops.key = []) :
    aesResult cmd ops = .err .keyLength := by
  have hcheck : checkKey ops.key = .error .keyLength := by
    rw [hkey]
    exact checkKey_of_length_ne rfl (by decide)
  exact aesResult_error (aesCheck_of_checkKey_error hcheck)

/-- With no text a shift command has no character to transform, and with no key an AES command gives no output. -/
theorem engineResult_out_of_empty {cmd : Cmd} {ops : Operands} {out : List Byte} {trace : List TraceEntry}
    (hkey : ops.key = []) (htext : ops.text = []) (h : engineResult cmd ops = .ok out trace) : out = [] := by
  obtain ⟨_, rfl, _⟩ | ⟨_, hrun, _⟩ := engineResult_ok h
  · rw [htext]
    rfl
  · have hkeyLength := (aesResult_of_ok hrun).symm.trans (aesResult_of_no_key hkey)
    cases hkeyLength

theorem complete_outBuf_of_empty {s : State} (hkey : s.keyBuf = []) (htext : s.inBuf = []) :
    (complete s).outBuf = [] := by
  obtain ⟨out, trace, hr, h⟩ | ⟨e, h⟩ := complete_cases s
  · rw [h]
    exact engineResult_out_of_empty (ops := s.operands) hkey htext hr
  · rw [h]
    rfl

/-- Settles O8: reset leaves the buffers empty and OVF 0, and acceptance leaves both so. -/
theorem runStraightAfterReset : Obligations.RunStraightAfterReset := by
  intro cfg i cmd hr hw
  have herr : (complete (accept cmd (State.resetOf cfg))).err =
      (engineResult cmd (State.resetOf cfg).operands).error? := complete_err _
  refine ⟨accept cmd (State.resetOf cfg), exec_run hr hw rfl, rfl, complete_outBuf_of_empty rfl rfl,
    fun halg hsinv => herr.trans ?shift, fun halg => herr.trans ?aes⟩
  case shift =>
    rw [engineResult_shift rfl halg, shiftResult, hsinv]
    rfl
  case aes =>
    rw [engineResult_aes rfl halg, aesResult_of_no_key rfl]
    rfl

end Sys2Proof.Machine
